-- ==== Sys2Proof/Word.lean ====
section
/-! DEFINITION. The fixed widths of the core (R6, R60, R84, R87, R88). The registers whose width is the
parameter P_TW or IW (TCNT, LOWD, INACT) are natural numbers with an explicit range. -/

namespace Sys2Proof

/-- The capture control word CW (R87). -/
abbrev CaptureWord := BitVec 5

/-- The consumer control word KW (R88). -/
abbrev ConsumerWord := BitVec 2

/-- The FrameSet bit memory: bit `13 * k + p` is bit p of frame k (R60). -/
abbrev FsetBits := BitVec 39

/-- One frame: header, address field, data field (R84). -/
abbrev FrameWord := BitVec 13

/-- The address field of a frame (R84). -/
abbrev AddressField := BitVec 8

/-- The data field of a frame, and the register DATA (R31, R84). -/
abbrev Nibble := BitVec 4

end Sys2Proof
end

