-- ==== Sys2Proof/Config.lean ====
section
/-! DEFINITION. What is fixed when the circuit is built (R7, R116), and the free values. -/

namespace Sys2Proof

/-- The four window bounds P_SHORT_MIN, P_SHORT_MAX, P_LONG_MIN and P_LONG_MAX (R7). -/
structure Bounds where
  shortMin : Nat
  shortMax : Nat
  longMin : Nat
  longMax : Nat
  deriving DecidableEq, Repr

/-- The two forms a configuration may give the windows in (R116): the bounds themselves, or the inputs
P_F_TICK, P_F_OSC and P_TOL of the tolerance model (R110). -/
inductive WindowSource where
  | direct (bounds : Bounds)
  | derived (fTick fOsc tol : Nat)
  deriving DecidableEq, Repr

/-- The configuration record of Table T1 (R7): P_ADDR, P_TW, P_TIMEOUT and the windows. -/
structure Params where
  addr : Nat
  tw : Nat
  timeout : Nat
  windows : WindowSource
  deriving DecidableEq, Repr

/-- The elaboration checks of R114 and R246, by name. TIMEOUT_RANGE (an integer, at least 0) holds of
every natural number, so it needs no check here. -/
inductive Check where
  | addrRange
  | twMin
  | fTickPos
  | shortOrder
  | longOrder
  | windowRange
  | fOscRange
  | tolRange
  deriving DecidableEq, Repr

/-- The configuration the spec's vectors use (95_test_vectors.md, REF). DESIGN CHOICE (log entry 2): the
spec leaves every parameter open, and this one stands in `State.reset` only because a state holds one. -/
def Config.reference : Params :=
  { addr := 0xFF, tw := 8, timeout := 3, windows := .derived 30000 3000 20 }

/-- FREE VALUE (93 I10, R242; log entry 4): the level of DIN in the reset cycle a run starts from. -/
opaque Config.resetDin : Bool

/-- FREE VALUE (93 I9, R247; log entry 3): the level of DIN in a cycle for which the host has laid down
no stimulus, by the number of the cycle. -/
opaque Config.freeDin : Nat → Bool

/-- FREE VALUE (R245, R247; log entry 3): the level of RST in such a cycle. -/
opaque Config.freeRst : Nat → Bool

end Sys2Proof
end

