-- ==== Sys2Proof/Syntax.lean ====
section
/-! DEFINITION. The operations of the core, one constructor for each row of the opcode table (R89); the
two control words that select them (R87, R88); and the notation of input waveforms (R96, R97). -/

namespace Sys2Proof

/-- The operations of R89, in the order of spec/opcode_table.json. No row has an operand field. RESET
has one row in each control word, so it has two constructors (log entry 11). -/
inductive Instr where
  | resetCapture   -- RESET, CW 1xxxx
  | count          -- COUNT, CW 0x000
  | ptick          -- PTICK, CW 0x001
  | start          -- START, CW 0010x
  | rise           -- RISE, CW 0110x
  | fallIdle       -- FALL_IDLE, CW 0001x
  | fallBit        -- FALL_BIT, CW 0101x
  | resetConsumer  -- RESET, KW 1x
  | cidle          -- CIDLE, KW 00
  | analyze        -- ANALYZE, KW 01
  deriving DecidableEq, Repr

/-- A control word of either agent. -/
inductive ControlWord where
  | capture (cw : CaptureWord)
  | consumer (kw : ConsumerWord)
  deriving DecidableEq, Repr

/-- Why a word selects no operation. `noOperation`: the word matches no row; for CW that is the pattern
0x11x of R92. `notAControlWord`: the number does not fit the control word. -/
inductive DecodeError where
  | noOperation (w : ControlWord)
  | notAControlWord (nbits w : Nat)
  deriving DecidableEq, Repr

/-- The input levels of one cycle (R37). -/
structure Pins where
  rst : Bool
  din : Bool
  deriving DecidableEq, Repr

/-- One item of a program (R96): n cycles of reset with DIN low, of DIN low, of DIN high. -/
inductive Item where
  | rst (n : Nat)
  | low (n : Nat)
  | high (n : Nat)
  deriving DecidableEq, Repr

/-- The pseudo-operations of R97. -/
inductive PseudoOp where
  | one
  | zero
  | hdr (g : Nat) (h : Bool)
  | frame (g : Nat) (h : Bool) (a : AddressField) (d : Nibble)
  | set (g0 g : Nat) (h : Bool) (a : AddressField) (d : Nibble)
  | idle (n : Nat)
  deriving DecidableEq, Repr

end Sys2Proof
end

