-- ==== Sys2Proof/Machine/State.lean ====
section
/-! DEFINITION. The state of the core (R20 to R32), the reasons a step can stop, the cause labels, and the
state a run starts from (R38, R242). -/

namespace Sys2Proof.Machine

/-- What stops the machine with a fault. The core itself has no fatal error (R214). -/
inductive Fault where
  /-- Raised by `memRead` and `memWrite` on an access of n bits at bit address a that does not lie inside
  one frame of FSET (R60, R61). Safe: no operation issues one from a state that meets the invariants. -/
  | outsideFrame (a n : Nat)
  deriving DecidableEq, Repr

/-- Why a step is refused. -/
inductive Refusal where
  /-- Raised by an arm of `exec` whose operation has no meaning yet; no arm is left. Safe. -/
  | notModelled (mnemonic : String)
  /-- Raised by every operation when the configuration fails a check: there is no such hardware (R246,
  R114). Safe. -/
  | illegalConfiguration (failed : List Check)
  /-- Raised by every operation but RESET before the first RESET cycle (R242, 93 I4). Safe. -/
  | beforeFirstReset
  /-- Raised by every operation but RESET in a state outside the invariants of R39 or the register
  widths, where no rule defines an operation (R93, 93 I3). Safe. -/
  | unreachableState
  /-- Raised by `step` for a control word that selects no operation (R92, 93 I2). Safe: no state and pins
  form such a word. -/
  | noOperation (e : DecodeError)
  deriving DecidableEq, Repr

/-- The cause labels of R210. A label belongs to a cycle, not to the state (R15). -/
inductive Cause where
  | none
  | malformedBitTiming
  | inactivityTimeout
  | addressMismatch
  deriving DecidableEq, Repr

/-- The registers of R20, and with them what the step takes as arguments: the configuration (R7, log
entry 1), whether a RESET cycle has happened (R242, log entry 8), and the pins the host drives in the
cycles to come (R96, log entry 3). -/
structure State where
  /-- The configuration record; no operation writes it (R7, R115). -/
  params : Params
  /-- The model's own: a RESET cycle has happened, so the registers hold values (R242). -/
  hasReset : Bool
  /-- DINQ, DIN of the previous cycle (R21). -/
  dinq : Bool
  /-- TCNT, the tick counter, P_TW bits (R22). -/
  tcnt : Nat
  /-- LOWD, the duration of the last low phase, P_TW bits (R23). -/
  lowd : Nat
  /-- CAPT, 0 Idle and 1 Capturing (R24). -/
  capt : Bool
  /-- FIDX, the frame being captured (R25). -/
  fidx : BitVec 2
  /-- BIDX, the next symbol of the frame (R26). -/
  bidx : BitVec 4
  /-- FSET, the FrameSet bit memory (R27, R60). -/
  fset : FsetBits
  /-- INACT, the inactivity counter, IW bits (R28). -/
  inact : Nat
  /-- PEND, an analysis is pending (R29). -/
  pend : Bool
  /-- VALID, which drives VT (R30). -/
  valid : Bool
  /-- DATA, which drives DOUT (R31). -/
  data : Nibble
  /-- CHG, the data-changed pulse (R32). -/
  chg : Bool
  /-- The model's own: the pins of the cycles to come, the next cycle first (R96). -/
  stimulus : List Pins
  /-- The model's own: how many cycles have passed; it numbers the free pin levels (93 I9). -/
  cycle : Nat
  deriving DecidableEq, Repr

/-- The state a run starts from: the reset state of R38 for a free draw of DIN (R242), in the reference
configuration (log entry 2), with no stimulus laid down. -/
def State.reset : State :=
  { params := Config.reference
    hasReset := true
    dinq := Config.resetDin
    tcnt := 0
    lowd := 0
    capt := false
    fidx := 0
    bidx := 0
    fset := 0
    inact := 0
    pend := false
    valid := false
    data := 0
    chg := false
    stimulus := []
    cycle := 0 }

end Sys2Proof.Machine
end

