-- ==== Sys2Proof/Machine/Tolerance.lean ====
section
/-! DEFINITION. The tolerance model and the constants derived from a configuration (R8, R14, R111 to
R116), and the checks a configuration must pass for the circuit to exist (R114, R246). -/

namespace Sys2Proof

/-- SHORT_NOM: whole ticks in one encoder oscillator period (R111). -/
def shortNom (fTick fOsc : Nat) : Nat := fTick / fOsc

/-- LONG_NOM, from the truncated SHORT_NOM (R112). -/
def longNom (short : Nat) : Nat := 2 * short

/-- DS or DL: the product is formed before the one truncating division (R113). -/
def toleranceTicks (nominal tol : Nat) : Nat := nominal * tol / 100

/-- The four bounds of the derived form (R113). For a legal tolerance no subtraction goes below 0; an
illegal one is refused by `Check.tolRange`. -/
def derivedBounds (fTick fOsc tol : Nat) : Bounds :=
  let s := shortNom fTick fOsc
  let l := longNom s
  { shortMin := s - toleranceTicks s tol
    shortMax := s + toleranceTicks s tol
    longMin := l - toleranceTicks l tol
    longMax := l + toleranceTicks l tol }

/-- The four bounds of a configuration, whichever form gives them (R116). -/
def Params.bounds (p : Params) : Bounds :=
  match p.windows with
  | .direct b => b
  | .derived fTick fOsc tol => derivedBounds fTick fOsc tol

/-- TMAX, the largest value of TCNT (R8). -/
def Params.tmax (p : Params) : Nat := 2 ^ p.tw - 1

/-- IW, the width of INACT: the least number of bits that holds P_TIMEOUT, at least 1 (R8). -/
def Params.iw (p : Params) : Nat := Nat.log2 p.timeout + 1

/-- `inS(d)`: d lies in the window SHORT, both ends included (R14). -/
def Params.inS (p : Params) (d : Nat) : Bool :=
  decide (p.bounds.shortMin ≤ d ∧ d ≤ p.bounds.shortMax)

/-- `inL(d)`: d lies in the window LONG, both ends included (R14). -/
def Params.inL (p : Params) (d : Nat) : Bool :=
  decide (p.bounds.longMin ≤ d ∧ d ≤ p.bounds.longMax)

/-- Whether a configuration passes one check (R114, R246). The last two, and F_TICK_POS, bear on the
derived form only. -/
def Params.passes (p : Params) : Check → Bool
  | .addrRange => decide (p.addr ≤ 255)
  | .twMin => decide (2 ≤ p.tw)
  | .fTickPos =>
    match p.windows with
    | .direct _ => true
    | .derived fTick _ _ => decide (0 < fTick)
  | .shortOrder => decide (p.bounds.shortMin < p.bounds.shortMax)
  | .longOrder => decide (p.bounds.longMin < p.bounds.longMax)
  | .windowRange =>
    decide (p.bounds.shortMin ≤ p.tmax ∧ p.bounds.shortMax ≤ p.tmax ∧
      p.bounds.longMin ≤ p.tmax ∧ p.bounds.longMax ≤ p.tmax)
  | .fOscRange =>
    match p.windows with
    | .direct _ => true
    | .derived _ fOsc _ => decide (2000 < fOsc)
  | .tolRange =>
    match p.windows with
    | .direct _ => true
    | .derived _ _ tol => decide (tol ≤ 100)

/-- Every check, in the order of R246 and then R114. -/
def allChecks : List Check :=
  [.addrRange, .twMin, .fTickPos, .shortOrder, .longOrder, .windowRange, .fOscRange, .tolRange]

/-- The checks a configuration fails. -/
def Params.failedChecks (p : Params) : List Check :=
  allChecks.filter (fun c => !p.passes c)

/-- A configuration for which the circuit is built (R246). -/
def Params.legal (p : Params) : Bool := p.failedChecks.isEmpty

end Sys2Proof
end

