-- ==== Sys2Proof/Machine/Flags.lean ====
section
/-! DEFINITION. The pins of a cycle and every condition decoded from them and the registers: the edges
(R86), the overflow comparator (R87), the two control words (R87, R88). -/

namespace Sys2Proof.Machine

/-- The pins of the cycle about to run: the host's next sample, or free levels where the host has laid
down none (R96, R247). -/
def State.pins (s : State) : Pins :=
  match s.stimulus with
  | p :: _ => p
  | [] => { rst := Config.freeRst s.cycle, din := Config.freeDin s.cycle }

/-- RST of the cycle. -/
def State.rst (s : State) : Bool := s.pins.rst

/-- DIN of the cycle, sampled once (D2). -/
def State.din (s : State) : Bool := s.pins.din

/-- RISE (R86). -/
def State.riseEdge (s : State) : Bool := !s.dinq && s.din

/-- FALL (R86). -/
def State.fallEdge (s : State) : Bool := s.dinq && !s.din

/-- EDGE (R86). -/
def State.edge (s : State) : Bool := s.riseEdge || s.fallEdge

/-- OVF, the raw comparator TCNT = TMAX (R87). -/
def State.ovf (s : State) : Bool := decide (s.tcnt = s.params.tmax)

/-- CW = RST, CAPT, RISE, FALL, OVF from bit 4 down to bit 0 (R87). -/
def State.captureWord (s : State) : CaptureWord :=
  BitVec.ofBool s.rst ++ BitVec.ofBool s.capt ++ BitVec.ofBool s.riseEdge ++
    BitVec.ofBool s.fallEdge ++ BitVec.ofBool s.ovf

/-- KW = RST, PEND (R88). -/
def State.consumerWord (s : State) : ConsumerWord :=
  BitVec.ofBool s.rst ++ BitVec.ofBool s.pend

end Sys2Proof.Machine
end

