-- ==== Sys2Proof/Machine/Memory.lean ====
section
/-! DEFINITION. The FrameSet bit memory: MemRead and MemWrite (R11, R60 to R63) and the views of a frame
(R60, R84, R98). -/

namespace Sys2Proof.Machine

/-- The n bits at bit address a lie inside one frame, and so inside FSET (R60, R61). -/
def inFrame (a n : Nat) : Bool := decide (a % 13 + n ≤ 13 ∧ a < 39)

/-- The bits of FSET at addresses a to a + n - 1, bit a the least significant (R61). -/
def readBits (m : FsetBits) (a n : Nat) : BitVec n := m.extractLsb' a n

/-- FSET with bit i of v at address a + i, for every i below n, and every other bit as it was (R62). -/
def writeBits (m : FsetBits) (a n : Nat) (v : BitVec n) : FsetBits :=
  (m &&& ~~~((BitVec.allOnes n).setWidth 39 <<< a)) ||| (v.setWidth 39 <<< a)

/-- MemRead(a, n) (R61); an access outside a frame is a fault. -/
def memRead (m : FsetBits) (a n : Nat) : Except Fault (BitVec n) :=
  if inFrame a n then .ok (readBits m a n) else .error (.outsideFrame a n)

/-- MemWrite(a, n, v) (R62); an access outside a frame is a fault. -/
def memWrite (m : FsetBits) (a n : Nat) (v : BitVec n) : Except Fault FsetBits :=
  if inFrame a n then .ok (writeBits m a n v) else .error (.outsideFrame a n)

/-- The three writes that clear every frame (R63). -/
def clearFset (m : FsetBits) : Except Fault FsetBits := do
  let m0 ← memWrite m 0 13 0
  let m1 ← memWrite m0 13 13 0
  memWrite m1 26 13 0

/-- FSET[k], the 13-bit word of frame k (R60). -/
def frameWord (m : FsetBits) (k : Nat) : FrameWord := readBits m (13 * k) 13

/-- FSET[k][p], bit p of frame k (R60). -/
def frameBit (m : FsetBits) (k p : Nat) : Bool := m.getLsbD (13 * k + p)

/-- W(h, A, D) = h * 2^12 + A * 2^4 + D (R98). -/
def packFrame (h : Bool) (a : AddressField) (d : Nibble) : FrameWord :=
  (BitVec.ofBool h ++ a) ++ d

end Sys2Proof.Machine
end

