-- ==== Sys2Proof/Machine/Invariant.lean ====
section
/-! DEFINITION. The invariants of R39 one by one, the register widths, and when an operation is refused
(R93, R242, R246). INV5 speaks of two cycles and is stated of the step, not of a state. -/

namespace Sys2Proof.Machine

/-- INV1: Idle has both indices 0. -/
abbrev State.Inv1 (s : State) : Prop := s.capt = false → s.fidx = 0 ∧ s.bidx = 0

/-- INV2: an analysis is pending only in Idle. -/
abbrev State.Inv2 (s : State) : Prop := s.pend = true → s.capt = false

/-- INV3: the indices stay in range. -/
abbrev State.Inv3 (s : State) : Prop := s.fidx.toNat ≤ 2 ∧ s.bidx.toNat ≤ 12

/-- INV4: the inactivity counter stays at most P_TIMEOUT. -/
abbrev State.Inv4 (s : State) : Prop := s.inact ≤ s.params.timeout

/-- INV6: in Idle with nothing pending FSET is 0. -/
abbrev State.Inv6 (s : State) : Prop := s.capt = false → s.pend = false → s.fset = 0

/-- INV7: in Capturing(f, b) the frames after f are 0, and so are the bits of frame f at positions up to
12 - b. -/
abbrev State.Inv7 (s : State) : Prop :=
  s.capt = true →
    (∀ k : Fin 3, s.fidx.toNat < k.val → frameWord s.fset k.val = 0) ∧
    (∀ p : Fin 13, p.val ≤ 12 - s.bidx.toNat → frameBit s.fset s.fidx.toNat p.val = false)

/-- TCNT and LOWD are registers of P_TW bits (R22, R23). -/
abbrev State.Widths (s : State) : Prop := s.tcnt ≤ s.params.tmax ∧ s.lowd ≤ s.params.tmax

/-- The invariants of R39 that speak of one state, with the register widths. -/
abbrev State.Inv (s : State) : Prop :=
  s.Inv1 ∧ s.Inv2 ∧ s.Inv3 ∧ s.Inv4 ∧ s.Inv6 ∧ s.Inv7 ∧ s.Widths

/-- A state the rules speak of: the hardware exists, a RESET cycle has happened, and the invariants
hold. -/
abbrev State.Ready (s : State) : Prop :=
  s.params.legal = true ∧ s.hasReset = true ∧ s.Inv

/-- Why an operation other than RESET has no meaning in a state, if it has none (R246, R242, R93). -/
def State.refusal (s : State) : Option Refusal :=
  if s.params.legal = false then some (.illegalConfiguration s.params.failedChecks)
  else if s.hasReset = false then some .beforeFirstReset
  else if s.Inv then none
  else some .unreachableState

/-- Why RESET has no meaning in a state, if it has none: only where there is no hardware (R246). RESET
acts from any state (R240). -/
def State.resetRefusal (s : State) : Option Refusal :=
  if s.params.legal = false then some (.illegalConfiguration s.params.failedChecks) else none

end Sys2Proof.Machine
end

