-- ==== Sys2Proof/Machine/Operands.lean ====
section
/-! DEFINITION. The operands of R91, and the bit classifier that reads three of them (R140 to R144). -/

namespace Sys2Proof.Machine

/-- L, the low duration (R91). -/
def State.lowDuration (s : State) : Nat := s.lowd

/-- H, the high duration: TCNT in the FALL_BIT cycle (R91, R126). -/
def State.highDuration (s : State) : Nat := s.tcnt

/-- S, the sentinel flag: the next symbol is a header (R91, R83). -/
def State.sentinel (s : State) : Bool := s.bidx == 0

/-- The symbol position 12 - BIDX in the frame (R84, R91). -/
def State.symbolPosition (s : State) : Nat := 12 - s.bidx.toNat

/-- The FSET bit address of a symbol, 13 * FIDX + 12 - BIDX (R91, R153). -/
def State.symbolAddress (s : State) : Nat := 13 * s.fidx.toNat + s.symbolPosition

/-- The address field of frame k, MemRead(13k + 4, 8) (R91, R181). -/
def State.addressField (s : State) (k : Nat) : Except Fault AddressField :=
  memRead s.fset (13 * k + 4) 8

/-- The data field of frame 2, MemRead(26, 4) (R91, R183). -/
def State.dataField (s : State) : Except Fault Nibble := memRead s.fset 26 4

/-- The header of frame k, MemRead(13k + 12, 1); no operation reads it (R91). -/
def State.headerField (s : State) (k : Nat) : Except Fault (BitVec 1) :=
  memRead s.fset (13 * k + 12) 1

/-- The document's BitResult (R140). -/
inductive BitResult where
  | one
  | zero
  | invalid
  deriving DecidableEq, Repr

/-- classify(L, H, S): the high phase first, the branches nested (R140). -/
def classify (p : Params) (l h : Nat) (sentinel : Bool) : BitResult :=
  if p.inS h then
    if sentinel || p.inL l then .one else .invalid
  else if p.inL h then
    if sentinel || p.inS l then .zero else .invalid
  else .invalid

/-- The classification of a FALL_BIT cycle (R151). -/
def State.symbol (s : State) : BitResult :=
  classify s.params s.lowDuration s.highDuration s.sentinel

end Sys2Proof.Machine
end

