-- ==== Sys2Proof/Machine/Ops.lean ====
section
/-! DEFINITION. The operations the meanings share: the timer prologue (R120), the two ways to write the
capture state (R13), the full reset as exception entry (R12, R170), RESET (R240), the merge of the two
agents' writes (R65), and how an effect becomes an outcome. -/

namespace Sys2Proof.Machine

/-- What one operation of one agent does in a cycle: the registers from the next cycle on, and the cause
the cycle is labelled with (R15). -/
structure Effect where
  after : State
  cause : Cause
  deriving DecidableEq, Repr

/-- The timer prologue of every cycle with RST = 0 (R120). -/
def State.prologue (s : State) : State :=
  { s with
    dinq := s.din
    tcnt := if s.edge then 1 else (s.tcnt + 1) % 2 ^ s.params.tw }

/-- `state <- Idle` (R13). -/
def State.toIdle (s : State) : State :=
  { s with capt := false, fidx := 0, bidx := 0 }

/-- `state <- Capturing(f, b)` (R13). -/
def State.toCapturing (s : State) (f : BitVec 2) (b : BitVec 4) : State :=
  { s with capt := true, fidx := f, bidx := b }

/-- The full reset (R170), which DATA, CHG, LOWD, TCNT and DINQ survive. There is no return from it and
nothing is saved (R217, R218). -/
def State.fullReset (s : State) : Except Fault State := do
  let m ← clearFset s.fset
  .ok { s.toIdle with fset := m, inact := 0, pend := false, valid := false }

/-- `raise Abort(cause)` (R12): the full reset, and the cycle's label. -/
def raiseAbort (c : Cause) (s : State) : Except Fault Effect := do
  let t ← s.fullReset
  .ok { after := t, cause := c }

/-- `reset_state(DIN)` (R240): every register, whatever it held. -/
def State.resetRegisters (s : State) : Except Fault State := do
  let m ← clearFset s.fset
  .ok { s.toIdle with
    hasReset := true
    dinq := s.din
    tcnt := 0
    lowd := 0
    fset := m
    inact := 0
    pend := false
    valid := false
    data := 0
    chg := false }

/-- An effect without a cause. -/
def quiet (s : State) : Except Fault Effect := .ok { after := s, cause := .none }

/-- The outcome of an operation: refused for a reason, or what its effect gives. -/
def conclude (r : Option Refusal) (e : Except Fault Effect) : Host.Outcome State Fault Refusal :=
  match r with
  | some r => .refused r
  | none =>
    match e with
    | .ok x => .next x.after
    | .error f => .fault f

/-- The write merge (R65): `sc` holds the capture agent's writes of the cycle, `sk` those of the consumer
operation `k`, both made from the same start-of-cycle state. Every register `k` writes is taken from `sk`,
every other one from `sc`. -/
def mergeWrites (k : Instr) (sc sk : State) : State :=
  match k with
  | .analyze =>
    { sc with fset := sk.fset, pend := sk.pend, valid := sk.valid, data := sk.data, chg := sk.chg }
  | .cidle => { sc with chg := sk.chg }
  | .resetConsumer => sk
  | .resetCapture => sc
  | .count => sc
  | .ptick => sc
  | .start => sc
  | .rise => sc
  | .fallIdle => sc
  | .fallBit => sc

/-- The end of a cycle: the host's sample is used up and the cycle counted. -/
def State.endCycle (s : State) : State :=
  { s with stimulus := s.stimulus.tail, cycle := s.cycle + 1 }

/-- One cycle from the outcomes of its two operations, the consumer's being `k` (R64): both agents'
writes, merged. A stop of either agent is the cycle's. -/
def joinAgents (k : Instr) (capture consumer : Host.Outcome State Fault Refusal) :
    Host.Outcome State Fault Refusal :=
  match capture with
  | .fault f => .fault f
  | .refused r => .refused r
  | .next sc =>
    match consumer with
    | .fault f => .fault f
    | .refused r => .refused r
    | .next sk => .next (mergeWrites k sc sk).endCycle

end Sys2Proof.Machine
end

