-- ==== Sys2Proof/Machine/EdgeTimer.lean ====
section
/-! DEFINITION. The capture operations that are pure timer operations: COUNT, PTICK, RISE and FALL_IDLE
(41_edge_timer.md). -/

namespace Sys2Proof.Machine

/-- COUNT (R121): the prologue only. -/
def countEffect (s : State) : Except Fault Effect := quiet s.prologue

/-- PTICK (R122): suppressed while PEND = 1, the timeout where INACT = P_TIMEOUT (R171), else one more
periodic tick counted. -/
def ptickEffect (s : State) : Except Fault Effect :=
  if s.pend then quiet s.prologue
  else if s.inact = s.params.timeout then raiseAbort .inactivityTimeout s.prologue
  else quiet { s.prologue with inact := s.inact + 1 }

/-- RISE (R123): the low phase just ended is recorded. -/
def riseEffect (s : State) : Except Fault Effect := quiet { s.prologue with lowd := s.tcnt }

/-- FALL_IDLE (R124): the prologue only. -/
def fallIdleEffect (s : State) : Except Fault Effect := quiet s.prologue

def execCount (s : State) : Host.Outcome State Fault Refusal := conclude s.refusal (countEffect s)

def execPtick (s : State) : Host.Outcome State Fault Refusal := conclude s.refusal (ptickEffect s)

def execRise (s : State) : Host.Outcome State Fault Refusal := conclude s.refusal (riseEffect s)

def execFallIdle (s : State) : Host.Outcome State Fault Refusal :=
  conclude s.refusal (fallIdleEffect s)

end Sys2Proof.Machine
end

