-- ==== Sys2Proof/Machine/FrameAssembler.lean ====
section
/-! DEFINITION. The capture operations that change the capture state: START and FALL_BIT
(43_frame_assembler.md). -/

namespace Sys2Proof.Machine

/-- START (R150): opens a capture. -/
def startEffect (s : State) : Except Fault Effect := do
  let m ← memWrite s.fset 0 13 0
  quiet { s.prologue.toCapturing 0 0 with lowd := s.tcnt, fset := m, inact := 0 }

/-- Where capture goes after a stored symbol, from the start-of-cycle state `s` (R152): the next symbol
(R153), the next frame (R154), or Idle with an analysis pending (R155). The other writes of the cycle are
already in `t`. -/
def advanceCapture (s t : State) : State :=
  if s.bidx.toNat < 12 then { t with bidx := s.bidx + 1 }
  else if s.fidx.toNat < 2 then t.toCapturing (s.fidx + 1) 0
  else { t.toIdle with pend := true }

/-- Store a valid symbol at its position, clear INACT and advance (R153). -/
def storeSymbol (s : State) (b : Bool) : Except Fault Effect := do
  let m ← memWrite s.fset s.symbolAddress 1 (BitVec.ofBool b)
  quiet (advanceCapture s { s.prologue with fset := m, inact := 0 })

/-- FALL_BIT (R151): decide one symbol; an Invalid one aborts in the same cycle (R156). -/
def fallBitEffect (s : State) : Except Fault Effect :=
  match s.symbol with
  | .invalid => raiseAbort .malformedBitTiming s.prologue
  | .one => storeSymbol s true
  | .zero => storeSymbol s false

def execStart (s : State) : Host.Outcome State Fault Refusal := conclude s.refusal (startEffect s)

def execFallBit (s : State) : Host.Outcome State Fault Refusal :=
  conclude s.refusal (fallBitEffect s)

end Sys2Proof.Machine
end

