-- ==== Sys2Proof/Machine/Reset.lean ====
section
/-! DEFINITION. RESET, the synchronous reset of both agents (R240). It acts from any state of a circuit
that exists, and carries no cause (R210). -/

namespace Sys2Proof.Machine

/-- The effect of a RESET cycle (R240). -/
def resetEffect (s : State) : Except Fault Effect := do
  let t ← s.resetRegisters
  quiet t

/-- RESET as the capture agent's operation, CW 1xxxx. -/
def execResetCapture (s : State) : Host.Outcome State Fault Refusal :=
  conclude s.resetRefusal (resetEffect s)

/-- RESET as the consumer agent's operation, KW 1x. -/
def execResetConsumer (s : State) : Host.Outcome State Fault Refusal :=
  conclude s.resetRefusal (resetEffect s)

end Sys2Proof.Machine
end

