-- ==== Sys2Proof/Machine/Validator.lean ====
section
/-! DEFINITION. The consumer operations: ANALYZE and CIDLE (44_validator_latch.md). -/

namespace Sys2Proof.Machine

/-- Whether a frame's address field equals P_ADDR (R181). -/
def addressMatches (p : Params) (a : AddressField) : Bool := decide (a.toNat = p.addr)

/-- How many of three frames match (R180). -/
def matchCount (m0 m1 m2 : Bool) : Nat := m0.toNat + m1.toNat + m2.toNat

/-- The latch after an analysis of `n` matching frames with data field `d` (R181 to R183), before FSET
and PEND are cleared. -/
def latch (s : State) (n : Nat) (d : Nibble) : Effect :=
  if n = 3 then
    if d = s.data then { after := { s with valid := true, chg := false }, cause := .none }
    else { after := { s with valid := true, data := d, chg := true }, cause := .none }
  else { after := { s with valid := false, chg := false }, cause := .addressMismatch }

/-- ANALYZE (R180): count the matching frames, update the latch, consume the FrameSet (R184). -/
def analyzeEffect (s : State) : Except Fault Effect := do
  let a0 ← s.addressField 0
  let a1 ← s.addressField 1
  let a2 ← s.addressField 2
  let d ← s.dataField
  let n := matchCount (addressMatches s.params a0) (addressMatches s.params a1)
    (addressMatches s.params a2)
  let e := latch s n d
  let m ← clearFset s.fset
  .ok { e with after := { e.after with fset := m, pend := false } }

/-- CIDLE (R185): CHG falls. -/
def cidleEffect (s : State) : Except Fault Effect := quiet { s with chg := false }

def execAnalyze (s : State) : Host.Outcome State Fault Refusal :=
  conclude s.refusal (analyzeEffect s)

def execCidle (s : State) : Host.Outcome State Fault Refusal := conclude s.refusal (cidleEffect s)

end Sys2Proof.Machine
end

