-- ==== Sys2Proof/Machine/Dispatch.lean ====
section
/-! DEFINITION. What each operation does to the state, from a start-of-cycle state. -/

namespace Sys2Proof.Machine

def exec (i : Instr) (s : State) : Host.Outcome State Fault Refusal :=
  match i with
  | .resetCapture => Sys2Proof.Machine.execResetCapture s
  | .count => Sys2Proof.Machine.execCount s
  | .ptick => Sys2Proof.Machine.execPtick s
  | .start => Sys2Proof.Machine.execStart s
  | .rise => Sys2Proof.Machine.execRise s
  | .fallIdle => Sys2Proof.Machine.execFallIdle s
  | .fallBit => Sys2Proof.Machine.execFallBit s
  | .resetConsumer => Sys2Proof.Machine.execResetConsumer s
  | .cidle => Sys2Proof.Machine.execCidle s
  | .analyze => Sys2Proof.Machine.execAnalyze s

end Sys2Proof.Machine
end

