-- ==== Sys2Proof/Decode.lean ====
section
/-! DEFINITION. The operation map (R89) as a table of patterns, the decoder that reads it, and the
encoder written from the same table. -/

namespace Sys2Proof

/-- One capture row of R89: a word matches it when its bits under `mask` are those of `pattern`. -/
structure CaptureRow where
  mask : CaptureWord
  pattern : CaptureWord
  op : Instr
  deriving DecidableEq, Repr

/-- One consumer row of R89. -/
structure ConsumerRow where
  mask : ConsumerWord
  pattern : ConsumerWord
  op : Instr
  deriving DecidableEq, Repr

/-- The capture rows of R89; a mask bit of 0 is an `x` of the pattern. -/
def captureRows : List CaptureRow :=
  [ { mask := 0b10000, pattern := 0b10000, op := .resetCapture }
  , { mask := 0b10111, pattern := 0b00000, op := .count }
  , { mask := 0b10111, pattern := 0b00001, op := .ptick }
  , { mask := 0b11110, pattern := 0b00100, op := .start }
  , { mask := 0b11110, pattern := 0b01100, op := .rise }
  , { mask := 0b11110, pattern := 0b00010, op := .fallIdle }
  , { mask := 0b11110, pattern := 0b01010, op := .fallBit } ]

/-- The consumer rows of R89. -/
def consumerRows : List ConsumerRow :=
  [ { mask := 0b10, pattern := 0b10, op := .resetConsumer }
  , { mask := 0b11, pattern := 0b00, op := .cidle }
  , { mask := 0b11, pattern := 0b01, op := .analyze } ]

/-- The capture operation a word selects (R89); the words 0x11x select none (R92). -/
def decodeCapture (w : CaptureWord) : Except DecodeError Instr :=
  match captureRows.find? (fun r => w &&& r.mask == r.pattern) with
  | some r => .ok r.op
  | none => .error (.noOperation (.capture w))

/-- The consumer operation a word selects (R89). -/
def decodeConsumer (w : ConsumerWord) : Except DecodeError Instr :=
  match consumerRows.find? (fun r => w &&& r.mask == r.pattern) with
  | some r => .ok r.op
  | none => .error (.noOperation (.consumer w))

/-- The operation a control word selects. -/
def decode : ControlWord → Except DecodeError Instr
  | .capture w => decodeCapture w
  | .consumer w => decodeConsumer w

/-- A number read as a CW: refused by name when it has more than five bits. -/
def decodeCaptureNumber (w : Nat) : Except DecodeError Instr :=
  if w < 32 then decodeCapture (BitVec.ofNat 5 w) else .error (.notAControlWord 5 w)

/-- A number read as a KW: refused by name when it has more than two bits. -/
def decodeConsumerNumber (w : Nat) : Except DecodeError Instr :=
  if w < 4 then decodeConsumer (BitVec.ofNat 2 w) else .error (.notAControlWord 2 w)

/-- The words of an operation: its row's pattern, with the bits the row ignores taken from `x`
(the low two bits of `x` for a consumer row). -/
def encodeWith (x : CaptureWord) : Instr → ControlWord
  | .resetCapture => .capture (0b10000 ||| (x &&& 0b01111))
  | .count => .capture (0b00000 ||| (x &&& 0b01000))
  | .ptick => .capture (0b00001 ||| (x &&& 0b01000))
  | .start => .capture (0b00100 ||| (x &&& 0b00001))
  | .rise => .capture (0b01100 ||| (x &&& 0b00001))
  | .fallIdle => .capture (0b00010 ||| (x &&& 0b00001))
  | .fallBit => .capture (0b01010 ||| (x &&& 0b00001))
  | .resetConsumer => .consumer (0b10 ||| (x.setWidth 2 &&& 0b01))
  | .cidle => .consumer 0b00
  | .analyze => .consumer 0b01

/-- The word of an operation whose ignored bits are 0. -/
def encode (i : Instr) : ControlWord := encodeWith 0 i

/-- The operation the decoder reads from a word as the opcode table numbers its bits. The table has two
formats whose numbers overlap: a row of at most 2 bits is a KW, any longer one a CW (log entry 10). -/
def decodeTableWord (nbits w : Nat) : Option Instr :=
  match if nbits ≤ 2 then decodeConsumerNumber w else decodeCaptureNumber w with
  | .ok i => some i
  | .error _ => none

end Sys2Proof
end

