-- ==== Sys2Proof/Machine/Fetch.lean ====
section
/-! DEFINITION. The operations a cycle runs are decoded from the registers and pins, not fetched (R64,
R74). Here is that decoding, and its inverse: a state whose next cycle forms a given control word. -/

namespace Sys2Proof.Machine

/-- The capture operation of the cycle (R64, R89). -/
def State.captureOp (s : State) : Except DecodeError Instr := decodeCapture s.captureWord

/-- The consumer operation of the cycle (R64, R89). -/
def State.consumerOp (s : State) : Except DecodeError Instr := decodeConsumer s.consumerWord

/-- The same state in Idle (`c` false) or Capturing (`c` true), the invariants kept: nothing changes where
it is there already; otherwise indices 0, FSET 0 and, for Capturing, nothing pending. -/
def State.placeCapt (s : State) (c : Bool) : State :=
  if s.capt = c then s
  else { s with capt := c, fidx := 0, bidx := 0, fset := 0, pend := s.pend && !c }

/-- A tick count whose comparator OVF is `o`. -/
def State.placeOvf (s : State) (o : Bool) : State :=
  if o then { s with tcnt := s.params.tmax }
  else if s.tcnt = s.params.tmax then { s with tcnt := 0 }
  else s

/-- DINQ and the next sample of the pins. -/
def State.placePins (s : State) (rst dinq din : Bool) : State :=
  { s with dinq := dinq, stimulus := { rst := rst, din := din } :: s.stimulus }

/-- A state whose next cycle forms the word w as its CW. A word with RISE = 1 and FALL = 1 cannot be
formed (R92): its edge bits are left out. -/
def State.placeCapture (s : State) (w : CaptureWord) : State :=
  ((s.placeCapt (w.getLsbD 3)).placeOvf (w.getLsbD 0)).placePins (w.getLsbD 4)
    (w.getLsbD 1) (w.getLsbD 2)

/-- A state whose next cycle forms the word w as its KW, with no edge on DIN. A pending analysis is
placed in Idle, as the invariants ask. -/
def State.placeConsumer (s : State) (w : ConsumerWord) : State :=
  if w.getLsbD 0 then
    { s.placeCapt false with pend := true }.placePins (w.getLsbD 1) false false
  else
    { s with pend := false, fset := if s.capt then s.fset else 0 }.placePins (w.getLsbD 1) false false

/-- A state whose next cycle forms the table word w of a row of `nbits` bits: a KW where the row has at
most 2 bits, else a CW, as `decodeTableWord` reads it (log entry 10). -/
def State.placeWord (s : State) (nbits w : Nat) : State :=
  if nbits ≤ 2 then s.placeConsumer (BitVec.ofNat 2 w) else s.placeCapture (BitVec.ofNat 5 w)

end Sys2Proof.Machine
end

