-- ==== Sys2Proof/Machine/Step.lean ====
section
/-! DEFINITION. One clock cycle (R64): each agent's operation is decoded from the start-of-cycle state and
the pins, both run from that state, and their writes are merged (R65). -/

namespace Sys2Proof.Machine

def step (s : State) : Host.Outcome State Fault Refusal :=
  match s.captureOp with
  | .error e => .refused (.noOperation e)
  | .ok c =>
    match s.consumerOp with
    | .error e => .refused (.noOperation e)
    | .ok k => joinAgents k (exec c s) (exec k s)

/-- The state whose next step forms and runs the table word w (log entry 10). -/
def State.withFetchWord (s : State) (nbits w : Nat) : State := s.placeWord nbits w

end Sys2Proof.Machine
end

