-- ==== Sys2Proof/Machine/Stimulus.lean ====
section
/-! DEFINITION. Programs: input waveforms in the notation of R96 and R97, and how one is laid before the
core. -/

namespace Sys2Proof.Machine

/-- The pins of the cycles of one item (R96). -/
def itemPins : Item → List Pins
  | .rst n => List.replicate n { rst := true, din := false }
  | .low n => List.replicate n { rst := false, din := false }
  | .high n => List.replicate n { rst := false, din := true }

/-- The pins of a program, cycle by cycle (R96). -/
def programPins (p : List Item) : List Pins := p.flatMap itemPins

/-- ONE or ZERO for a symbol value, with nominal short length s (R97). -/
def symbolItems (s : Nat) (b : Bool) : List Item :=
  if b then [.low (2 * s), .high s] else [.low s, .high (2 * s)]

/-- HDR g, h (R97). -/
def headerItems (s g : Nat) (h : Bool) : List Item :=
  [.low g, .high (if h then s else 2 * s)]

/-- The bits of a field, most significant first, as the line sends them (R84, R97). -/
def fieldBits (n : Nat) (v : BitVec n) : List Bool :=
  (List.range n).map (fun j => v.getLsbD (n - 1 - j))

/-- FRAME g, h, A, D (R97). -/
def frameItems (s g : Nat) (h : Bool) (a : AddressField) (d : Nibble) : List Item :=
  headerItems s g h ++ ((fieldBits 8 a ++ fieldBits 4 d).flatMap (symbolItems s))

/-- The expansion of a pseudo-operation, with nominal short length s (R97). -/
def expand (s : Nat) : PseudoOp → List Item
  | .one => symbolItems s true
  | .zero => symbolItems s false
  | .hdr g h => headerItems s g h
  | .frame g h a d => frameItems s g h a d
  | .set g0 g h a d => frameItems s g0 h a d ++ frameItems s g h a d ++ frameItems s g h a d
  | .idle n => [.low n]

/-- The state before a program's first cycle: the host has laid the program's pins before the core. -/
def State.load (s : State) (p : List Item) : State := { s with stimulus := programPins p }

end Sys2Proof.Machine
end

