-- ==== Sys2Proof/Machine/Labels.lean ====
section
/-! DEFINITION. The labels of a cycle: the two operations and the cause (R15, R210). They carry no state:
each is read off the start-of-cycle state and the pins, from the same effects the meanings run. -/

namespace Sys2Proof.Machine

/-- The numeric codes of R210, for a trace only. -/
def Cause.code : Cause → Nat
  | .none => 0
  | .malformedBitTiming => 1
  | .inactivityTimeout => 2
  | .addressMismatch => 3

/-- The effect of an operation in a cycle. -/
def effectOf (i : Instr) (s : State) : Except Fault Effect :=
  match i with
  | .resetCapture => resetEffect s
  | .count => countEffect s
  | .ptick => ptickEffect s
  | .start => startEffect s
  | .rise => riseEffect s
  | .fallIdle => fallIdleEffect s
  | .fallBit => fallBitEffect s
  | .resetConsumer => resetEffect s
  | .cidle => cidleEffect s
  | .analyze => analyzeEffect s

/-- The cause an operation raises in a cycle. -/
def causeOf (i : Instr) (s : State) : Cause :=
  match effectOf i s with
  | .ok e => e.cause
  | .error _ => .none

/-- The labels of one cycle (R15). -/
structure Label where
  capture : Instr
  consumer : Instr
  cause : Cause
  deriving DecidableEq, Repr

/-- A cycle's one cause: the capture agent's, or else the consumer's (R216). -/
def joinCauses (capture consumer : Cause) : Cause :=
  if capture = .none then consumer else capture

/-- The labels of the cycle about to run; none where the step does not answer a next state. -/
def State.label (s : State) : Option Label :=
  match s.captureOp, s.consumerOp, step s with
  | .ok c, .ok k, .next _ =>
    some { capture := c, consumer := k, cause := joinCauses (causeOf c s) (causeOf k s) }
  | _, _, _ => none

end Sys2Proof.Machine
end

