-- ==== Sys2Proof/Machine/Ports.lean ====
section
/-! DEFINITION. The output projection: the ports are the latch's registers and nothing else (R195 to
R198). -/

namespace Sys2Proof.Machine

/-- What a reader of the output ports sees in a cycle (R37, R41). -/
structure Ports where
  vt : Bool
  dout : Nibble
  chg : Bool
  deriving DecidableEq, Repr

/-- VT = VALID (R195), DOUT = DATA (R196), CHG = CHG (R197). -/
def State.ports (s : State) : Ports :=
  { vt := s.valid, dout := s.data, chg := s.chg }

/-- The data line DOUT[i]; DOUT[3] is the first line (R196). -/
def State.doutLine (s : State) (i : Nat) : Bool := s.data.getLsbD i

end Sys2Proof.Machine
end

