-- ==== Sys2Proof/Safety.lean ====
section
/-! DEFINITION. The terms claims about a run use: a settled state (R247), the run itself, a line held at
one level, and the relation of a step to its next state. -/

namespace Sys2Proof.Machine

/-- No analysis is owed and no change pulse is showing (R247). -/
abbrev State.Settled (s : State) : Prop := s.pend = false ∧ s.chg = false

/-- The step answers the next state t. -/
abbrev Steps (s t : State) : Prop := step s = Host.Outcome.next t

/-- n cycles from s end in t, with no stop on the way. -/
abbrev Runs (n : Nat) (s t : State) : Prop := Host.Core.run Sys2Proof.core n s = Host.Outcome.next t

/-- The host holds DIN at the level it had, without reset, for the next n cycles. -/
abbrev State.Holds (s : State) (n : Nat) : Prop :=
  s.stimulus.take n = List.replicate n { rst := false, din := s.dinq }

/-- What a FrameSet just completed leaves of the timer: PEND = 1 only right after a falling edge, with
TCNT = 1 and INACT = 0 (R122 (c), R155). -/
abbrev State.PendFresh (s : State) : Prop :=
  s.pend = true → s.tcnt = 1 ∧ s.dinq = false ∧ s.inact = 0

/-- Frame k's address field equals P_ADDR, read off FSET as it stands (R181). -/
abbrev State.FrameMatches (s : State) (k : Nat) : Prop :=
  (readBits s.fset (13 * k + 4) 8).toNat = s.params.addr

/-- All three frames carry the expected address (R181). -/
abbrev State.Unanimous (s : State) : Prop :=
  s.FrameMatches 0 ∧ s.FrameMatches 1 ∧ s.FrameMatches 2

/-- The data field of frame 2, read off FSET as it stands (R183). -/
abbrev State.newData (s : State) : Nibble := readBits s.fset 26 4

/-- The cycle aborts with MalformedBitTiming: a falling edge while Capturing whose symbol is Invalid
(R211). -/
abbrev State.Malformed (s : State) : Prop :=
  s.fallEdge = true ∧ s.capt = true ∧ s.symbol = .invalid

/-- The cycle is the inactivity timeout: no edge, the overflow, nothing pending, the count at its bound
(R212). -/
abbrev State.TimesOut (s : State) : Prop :=
  s.edge = false ∧ s.ovf = true ∧ s.pend = false ∧ s.inact = s.params.timeout

/-- The cycle completes a FrameSet: a falling edge while Capturing with a valid symbol, the last of frame
2 (R155). -/
abbrev State.CompletesSet (s : State) : Prop :=
  s.fallEdge = true ∧ s.capt = true ∧ s.symbol ≠ .invalid ∧ s.bidx = 12 ∧ s.fidx = 2

/-- The registers in Idle after a full reset, all others as in `s` (R170). -/
def State.aborted (s : State) : State :=
  { s with capt := false, fidx := 0, bidx := 0, fset := 0, inact := 0, pend := false, valid := false }

end Sys2Proof.Machine
end

