-- ==== Sys2Proof/WellFormed.lean ====
section
/-! DEFINITION. Which control words, programs and configurations are well formed. An operation of `Instr`
has no operand, so every term of `Instr` is well formed and nothing is left to check of one. -/

namespace Sys2Proof

/-- A control word that can occur: RST = 0 with RISE = 1 and FALL = 1 (the pattern 0x11x) cannot (R92). -/
def ControlWord.wellFormed : ControlWord → Bool
  | .capture w => w.getLsbD 4 || !(w.getLsbD 2 && w.getLsbD 1)
  | .consumer _ => true

/-- Every program begins with `RST n`, n at least 1 (R242). -/
def programWellFormed : List Item → Bool
  | .rst n :: _ => decide (1 ≤ n)
  | _ => false

/-- A configuration for which there is hardware (R246). -/
def Params.wellFormed (p : Params) : Bool := p.legal

end Sys2Proof
end

