-- ==== Sys2Proof/Certificates/Slice0/Obligations.lean ====
section
/-! DEFINITION. The statements about the core, one for each entry of OBLIGATIONS.json. A state is `Ready`
when its configuration is legal, a RESET cycle has happened and the invariants of R39 hold. Where a rule
rests on a decision of 92_eei_decisions.md the docstring names it: the statement is then derived. -/

open Sys2Proof Sys2Proof.Machine

/-! ### The cycle, the control words and the operation map -/

/-- R64, R65 (decision D1; log entries 12 and 13): a cycle runs the two operations its control words
decode to, both from the start-of-cycle state. The consumer's writes are kept on an overlap. Around that
the step only uses up the host's sample and counts the cycle; a stop of either operation is the step's. -/
def Obligations.StepRunsTheDecodedOperations : Prop :=
  ∀ (s : State) (c k : Instr), decodeCapture s.captureWord = .ok c →
    decodeConsumer s.consumerWord = .ok k →
    step s = joinAgents k (exec c s) (exec k s) ∧
    (∀ sc sk, exec c s = .next sc → exec k s = .next sk → ∃ t, step s = .next t ∧
      t = (mergeWrites k sc sk).endCycle ∧
      (k = .analyze → t = { sc with
        fset := sk.fset, pend := sk.pend, valid := sk.valid, data := sk.data, chg := sk.chg,
        stimulus := sc.stimulus.tail, cycle := sc.cycle + 1 }) ∧
      (k = .cidle → t = { sc with
        chg := sk.chg, stimulus := sc.stimulus.tail, cycle := sc.cycle + 1 }) ∧
      (k = .resetConsumer → t = { sk with
        stimulus := sk.stimulus.tail, cycle := sk.cycle + 1 })) ∧
    (∀ r, exec c s = .refused r → step s = .refused r)

/-- R88: KW is RST and PEND, bit 1 and bit 0. -/
def Obligations.ConsumerWordIsRstAndPend : Prop :=
  ∀ s : State, s.consumerWord.getLsbD 1 = s.rst ∧ s.consumerWord.getLsbD 0 = s.pend

/-- R86, R87 (decisions D2 and D5): the five bits of CW, with the edges and the comparator. -/
def Obligations.CaptureWordBits : Prop :=
  ∀ s : State,
    s.captureWord.getLsbD 4 = s.rst ∧
    s.captureWord.getLsbD 3 = s.capt ∧
    s.captureWord.getLsbD 2 = (!s.dinq && s.din) ∧
    s.captureWord.getLsbD 1 = (s.dinq && !s.din) ∧
    (s.captureWord.getLsbD 0 = true ↔ s.tcnt = 2 ^ s.params.tw - 1)

/-- R89: the patterns of the operation map, row by row; the words 0x11x and no others select nothing. -/
def Obligations.OperationMapPatterns : Prop :=
  (∀ w : CaptureWord,
    (decodeCapture w = .ok .resetCapture ↔ w &&& 0b10000 = 0b10000) ∧
    (decodeCapture w = .ok .count ↔ w &&& 0b10111 = 0b00000) ∧
    (decodeCapture w = .ok .ptick ↔ w &&& 0b10111 = 0b00001) ∧
    (decodeCapture w = .ok .start ↔ w &&& 0b11110 = 0b00100) ∧
    (decodeCapture w = .ok .rise ↔ w &&& 0b11110 = 0b01100) ∧
    (decodeCapture w = .ok .fallIdle ↔ w &&& 0b11110 = 0b00010) ∧
    (decodeCapture w = .ok .fallBit ↔ w &&& 0b11110 = 0b01010) ∧
    (decodeCapture w = .error (.noOperation (.capture w)) ↔ w &&& 0b10110 = 0b00110)) ∧
  (∀ w : ConsumerWord,
    (decodeConsumer w = .ok .resetConsumer ↔ w &&& 0b10 = 0b10) ∧
    (decodeConsumer w = .ok .cidle ↔ w = 0b00) ∧
    (decodeConsumer w = .ok .analyze ↔ w = 0b01))

/-- Words written out from R89, one or two for each row, and the operation each stands for. -/
def Obligations.SpecWordsDecode : Prop :=
  decode (.capture 0b10000) = .ok .resetCapture ∧ decode (.capture 0b11111) = .ok .resetCapture ∧
  decode (.capture 0b01000) = .ok .count ∧ decode (.capture 0b01001) = .ok .ptick ∧
  decode (.capture 0b00101) = .ok .start ∧ decode (.capture 0b01101) = .ok .rise ∧
  decode (.capture 0b00011) = .ok .fallIdle ∧ decode (.capture 0b01011) = .ok .fallBit ∧
  decode (.consumer 0b11) = .ok .resetConsumer ∧ decode (.consumer 0b00) = .ok .cidle ∧
  decode (.consumer 0b01) = .ok .analyze

/-- R89, R90, R92: every word of an operation, whatever its ignored bits, decodes to that operation;
every word that decodes to an operation is one of its words; and a word decodes at all exactly when it is
well formed. -/
def Obligations.DecodeAndEncodeAgree : Prop :=
  (∀ (i : Instr) (x : CaptureWord), decode (encodeWith x i) = .ok i) ∧
  (∀ (w : ControlWord) (i : Instr), decode w = .ok i → ∃ x, w = encodeWith x i) ∧
  (∀ w : ControlWord, w.wellFormed = true ↔ ∃ i, decode w = .ok i)

/-! ### Invariants, totality and refusals -/

/-- R38, R242 (decision D19): the state a run starts from is Ready, Idle and quiet at its ports. Its
configuration and its level of DINQ are the model's (log entries 2 and 4); DINQ plays no part here. -/
def Obligations.ResetStateIsReady : Prop :=
  State.reset.Ready ∧ State.reset.PendFresh ∧ State.reset.Settled ∧
  State.reset.tcnt = 0 ∧ State.reset.lowd = 0 ∧ State.reset.capt = false ∧ State.reset.fset = 0 ∧
  State.reset.inact = 0 ∧ State.reset.ports = { vt := false, dout := 0, chg := false }

/-- R39, R64, R93, R214: from every Ready state, whatever the pins, the step answers a next state, and
that state is Ready again; the configuration is the same, one sample of the pins is used up and one cycle
counted. So no run from a Ready state ever stops. -/
def Obligations.EveryReadyStateStepsToAReadyState : Prop :=
  ∀ s : State, s.Ready → ∃ t, step s = .next t ∧ t.Ready ∧ t.params = s.params ∧
    t.stimulus = s.stimulus.tail ∧ t.cycle = s.cycle + 1

/-- R39, R93, R240: whatever the state before, one that no run reaches included, a state the step answers
is Ready. -/
def Obligations.EveryNextStateIsReady : Prop :=
  ∀ s t : State, step s = .next t → t.Ready

/-- R122 (c), R155: in every state the step answers, PEND = 1 only with TCNT = 1, DINQ = 0 and INACT = 0;
and in a Ready state of that kind the cycle with PEND = 1 is no PTICK, so the suppression of R122 never
changes a run. -/
def Obligations.PendingAnalysisMeetsNoPeriodicTick : Prop :=
  (∀ s t : State, step s = .next t → t.PendFresh) ∧
  (∀ s : State, s.Ready → s.PendFresh → s.pend = true →
    decodeCapture s.captureWord ≠ .ok .ptick)

/-- R39 INV5: PEND = 1 in one cycle is PEND = 0 in the next. -/
def Obligations.PendLastsOneCycle : Prop :=
  ∀ s : State, s.Ready → s.pend = true → ∃ t, step s = .next t ∧ t.pend = false

/-- R214: no step is a fault, from any state at all. -/
def Obligations.NoStepFaults : Prop := ∀ (s : State) (f : Fault), step s ≠ .fault f

/-- R92: no state and pins form a word that selects no operation. -/
def Obligations.NoCycleFormsAWordWithoutOperation : Prop :=
  ∀ (s : State) (e : DecodeError), step s ≠ .refused (.noOperation e)

/-- R246, R242, R93 (decisions D19, D22 and D26): in a cycle without reset, the step is refused, by name,
where there is no hardware, before the first reset, and outside the invariants. -/
def Obligations.RefusalsOfACycleWithoutReset : Prop :=
  ∀ s : State, s.rst = false →
    (s.params.legal = false →
      step s = .refused (.illegalConfiguration s.params.failedChecks)) ∧
    (s.params.legal = true → s.hasReset = false → step s = .refused .beforeFirstReset) ∧
    (s.params.legal = true → s.hasReset = true → ¬ s.Inv → step s = .refused .unreachableState)

/-! ### The configuration -/

/-- R114, R246 (decisions D3, D8 and D22; log entry 9): a legal configuration passes every elaboration
check, in either form of the windows; with one that is not legal the step is refused under every pin, a
reset cycle too, which is the model's choice; and overlapping windows are no ground for a refusal. -/
def Obligations.WindowLegality : Prop :=
  (∀ p : Params, p.legal = true →
    p.addr ≤ 255 ∧ 2 ≤ p.tw ∧
    p.bounds.shortMin < p.bounds.shortMax ∧ p.bounds.longMin < p.bounds.longMax ∧
    p.bounds.shortMin ≤ p.tmax ∧ p.bounds.shortMax ≤ p.tmax ∧
    p.bounds.longMin ≤ p.tmax ∧ p.bounds.longMax ≤ p.tmax ∧
    (∀ fTick fOsc tol, p.windows = .derived fTick fOsc tol →
      0 < fTick ∧ 2000 < fOsc ∧ tol ≤ 100)) ∧
  (∀ s : State, s.params.legal = false →
    step s = .refused (.illegalConfiguration s.params.failedChecks)) ∧
  (∀ p : Params, p.addr ≤ 255 → 2 ≤ p.tw → ∀ b : Bounds, p.windows = .direct b →
    b.shortMin < b.shortMax → b.longMin < b.longMax → b.shortMax ≤ p.tmax → b.longMax ≤ p.tmax →
    p.legal = true)

/-- R115 of the windows; R7 and D22 of the whole record, which stands in State (log entries 1 and 37): no
operation, no reset and no pin changes the configuration. -/
def Obligations.ConfigurationNeverChanges : Prop :=
  (∀ (i : Instr) (s t : State), exec i s = .next t → t.params = s.params) ∧
  (∀ s t : State, step s = .next t → t.params = s.params)

/-- R111 to R113 (decision D8): the derived bounds are the truncated nominal lengths plus and minus the
truncated tolerance, exactly, for every tolerance up to 100 percent. -/
def Obligations.DerivedWindows : Prop :=
  ∀ (p : Params) (fTick fOsc tol : Nat), p.windows = .derived fTick fOsc tol → tol ≤ 100 →
    let short := fTick / fOsc
    let long := 2 * short
    p.bounds.shortMin + short * tol / 100 = short ∧
    p.bounds.shortMax = short + short * tol / 100 ∧
    p.bounds.longMin + long * tol / 100 = long ∧
    p.bounds.longMax = long + long * tol / 100

/-- R8, R17: IW is the least width, at least 1, that holds P_TIMEOUT, and INACT of a Ready state fits it. -/
def Obligations.InactivityWidthIsLeast : Prop :=
  (∀ p : Params, 1 ≤ p.iw ∧ p.timeout < 2 ^ p.iw ∧ ∀ w, 1 ≤ w → p.timeout < 2 ^ w → p.iw ≤ w) ∧
  (∀ s : State, s.Ready → s.inact < 2 ^ s.params.iw)

/-! ### FSET -/

/-- R60, R61, R62: after a write inside one frame every bit of FSET is the written bit or what it was;
a read inside one frame gives the bits at its addresses. That an access not inside one frame is the fault
`outsideFrame` is the model's choice (log entry 14). -/
def Obligations.FsetReadAfterWrite : Prop :=
  ∀ (m : FsetBits) (a n : Nat) (v : BitVec n),
    (a % 13 + n ≤ 13 → a < 39 → ∃ m', memWrite m a n v = .ok m' ∧
      (∀ j, m'.getLsbD j = if a ≤ j ∧ j < a + n then v.getLsbD (j - a) else m.getLsbD j) ∧
      memRead m' a n = .ok v ∧
      (∃ u, memRead m a n = .ok u ∧ ∀ i, i < n → u.getLsbD i = m.getLsbD (a + i))) ∧
    (¬ (a % 13 + n ≤ 13 ∧ a < 39) →
      memWrite m a n v = .error (.outsideFrame a n) ∧ memRead m a n = .error (.outsideFrame a n))

/-- R84, R91, R98 (decision D16): the fields of a frame word W(h, A, D) stored as frame k are read back
as the header, the address field and, of frame 2, the data field. -/
def Obligations.FrameWordFields : Prop :=
  ∀ (s : State) (k : Nat) (h : Bool) (a : AddressField) (d : Nibble) (m : FsetBits), k < 3 →
    memWrite s.fset (13 * k) 13 (packFrame h a d) = .ok m →
    { s with fset := m }.addressField k = .ok a ∧
    { s with fset := m }.headerField k = .ok (BitVec.ofBool h) ∧
    (k = 2 → { s with fset := m }.dataField = .ok d) ∧
    (packFrame h a d).toNat = h.toNat * 2 ^ 12 + a.toNat * 2 ^ 4 + d.toNat

/-! ### The classifier -/

/-- R141: with disjoint windows and no sentinel the classifier is the symmetric contract. -/
def Obligations.ClassifierIsSymmetricWhenDisjoint : Prop :=
  ∀ (p : Params) (l h : Nat),
    (p.bounds.shortMax < p.bounds.longMin ∨ p.bounds.longMax < p.bounds.shortMin) →
    (classify p l h false = .one ↔ p.inS h = true ∧ p.inL l = true) ∧
    (classify p l h false = .zero ↔ p.inL h = true ∧ p.inS l = true) ∧
    (classify p l h false = .invalid ↔
      ¬ (p.inS h = true ∧ p.inL l = true) ∧ ¬ (p.inL h = true ∧ p.inS l = true))

/-- R140, R142 (decision D9): a high phase in both windows tries the One branch only, even where the low
phase is short; for every other high phase all three results are the symmetric contract, so the classifier
and the contract differ nowhere else. Windows one of which ends before the other begins, adjacent ones
included, have no high phase in both. -/
def Obligations.OverlappingWindowsTryOneOnly : Prop :=
  ∀ (p : Params) (l h : Nat),
    (p.inS h = true → p.inL h = true →
      classify p l h false = if p.inL l then .one else .invalid) ∧
    (¬ (p.inS h = true ∧ p.inL h = true) →
      (classify p l h false = .one ↔ p.inS h = true ∧ p.inL l = true) ∧
      (classify p l h false = .zero ↔ p.inL h = true ∧ p.inS l = true) ∧
      (classify p l h false = .invalid ↔
        ¬ (p.inS h = true ∧ p.inL l = true) ∧ ¬ (p.inL h = true ∧ p.inS l = true))) ∧
    (p.bounds.shortMax + 1 ≤ p.bounds.longMin ∨ p.bounds.longMax + 1 ≤ p.bounds.shortMin →
      ¬ (p.inS h = true ∧ p.inL h = true))

/-- R83, R140, R143 (decision D10): the header of any frame is decided by its high phase alone. -/
def Obligations.HeaderIsDecidedByItsHighPhase : Prop :=
  ∀ s : State, s.bidx = 0 →
    (s.symbol = .one ↔ s.params.inS s.tcnt = true) ∧
    (s.symbol = .zero ↔ s.params.inL s.tcnt = true ∧ s.params.inS s.tcnt = false) ∧
    (s.symbol = .invalid ↔ s.params.inS s.tcnt = false ∧ s.params.inL s.tcnt = false)

/-- R14, R144 (decision D7): a duration is in a window exactly from the window's minimum to its maximum,
both included; in a legal configuration both ends of each window are therefore in it, the durations just
beyond them are not, and 0 is in it only where its minimum is 0. -/
def Obligations.WindowsAreInclusive : Prop :=
  ∀ p : Params,
    (∀ d, (p.inS d = true ↔ p.bounds.shortMin ≤ d ∧ d ≤ p.bounds.shortMax) ∧
      (p.inL d = true ↔ p.bounds.longMin ≤ d ∧ d ≤ p.bounds.longMax)) ∧
    (p.legal = true →
      p.inS p.bounds.shortMin = true ∧ p.inS p.bounds.shortMax = true ∧
      p.inL p.bounds.longMin = true ∧ p.inL p.bounds.longMax = true ∧
      p.inS (p.bounds.shortMax + 1) = false ∧ p.inL (p.bounds.longMax + 1) = false ∧
      (0 < p.bounds.shortMin → p.inS (p.bounds.shortMin - 1) = false) ∧
      (0 < p.bounds.longMin → p.inL (p.bounds.longMin - 1) = false) ∧
      (p.inS 0 = true ↔ p.bounds.shortMin = 0) ∧ (p.inL 0 = true ↔ p.bounds.longMin = 0))

/-! ### The timer operations -/

/-- R120 (decision D4), R123, R150: in every cycle without reset, whatever the two operations, DINQ takes
DIN, TCNT is 1 after an edge and one more, modulo 2^P_TW, after none, and LOWD takes TCNT at a rising edge
and at nothing else. -/
def Obligations.TimerPrologueInEveryCycle : Prop :=
  ∀ s : State, s.Ready → s.rst = false → ∃ t, step s = .next t ∧ t.dinq = s.din ∧
    t.tcnt = (if s.dinq ≠ s.din then 1 else (s.tcnt + 1) % 2 ^ s.params.tw) ∧
    t.lowd = (if s.dinq = false ∧ s.din = true then s.tcnt else s.lowd)

/-- R121: COUNT adds one tick to TCNT and changes nothing else, in Idle and in Capturing; its words are
0x000. -/
def Obligations.CountAddsOneTick : Prop :=
  (∀ w : CaptureWord, decodeCapture w = .ok .count ↔ w = 0b00000 ∨ w = 0b01000) ∧
  (∀ s : State, s.Ready → s.dinq = s.din → s.tcnt < s.params.tmax →
    exec .count s = .next { s with tcnt := s.tcnt + 1 })

/-- R122, R171 (decisions D5, D12 and D13): PTICK wraps TCNT to 0; it is suppressed while PEND = 1, is the
timeout at INACT = P_TIMEOUT, and otherwise counts one periodic tick; in Idle and in Capturing. -/
def Obligations.PtickCountsOrTimesOut : Prop :=
  ∀ s : State, s.Ready → s.dinq = s.din → s.tcnt = s.params.tmax →
    (s.pend = true → exec .ptick s = .next { s with tcnt := 0 }) ∧
    (s.pend = false → s.inact = s.params.timeout →
      exec .ptick s = .next { s.aborted with tcnt := 0 }) ∧
    (s.pend = false → s.inact ≠ s.params.timeout →
      exec .ptick s = .next { s with tcnt := 0, inact := s.inact + 1 })

/-- R123: RISE records the low phase, restarts the count at 1 (decision D4) and changes nothing else. -/
def Obligations.RiseRecordsTheLowPhase : Prop :=
  ∀ s : State, s.Ready → s.dinq = false → s.din = true →
    exec .rise s = .next { s with dinq := true, tcnt := 1, lowd := s.tcnt }

/-- R124 (decision D15): FALL_IDLE restarts the count and changes nothing else. -/
def Obligations.FallIdleRestartsTheCount : Prop :=
  ∀ s : State, s.Ready → s.dinq = true → s.din = false →
    exec .fallIdle s = .next { s with dinq := false, tcnt := 1 }

/-- R129 (decision D6): a cycle with an edge is no PTICK, even with TCNT = TMAX: the count restarts at 1
and no periodic tick is counted. -/
def Obligations.AnEdgeBeatsTheOverflow : Prop :=
  ∀ s : State, s.Ready → s.rst = false → s.dinq ≠ s.din → s.tcnt = s.params.tmax →
    decodeCapture s.captureWord ≠ .ok .ptick ∧
    ∃ t, step s = .next t ∧ t.tcnt = 1 ∧ (t.inact = s.inact ∨ t.inact = 0)

/-- R125 (decision D4): the edge of cycle a, then a level held for n cycles: at the cycle b = a + n + 1
that follows, TCNT is (b - a) modulo 2^P_TW. After a last reset cycle r and n held cycles, TCNT in cycle
b = r + n + 1 is (b - r - 1) modulo 2^P_TW. -/
def Obligations.DurationMeasurement : Prop :=
  (∀ (s t : State) (n : Nat), s.Ready → s.rst = false → s.dinq ≠ s.din → step s = .next t →
    t.Holds n → ∃ u, Runs n t u ∧ u.dinq = s.din ∧ u.tcnt = (n + 1) % 2 ^ s.params.tw) ∧
  (∀ (s t : State) (n : Nat), s.rst = true → step s = .next t → t.Holds n →
    ∃ u, Runs n t u ∧ u.dinq = s.din ∧ u.tcnt = n % 2 ^ s.params.tw)

/-- R127, R171, R212 (decisions D5, D12, D13 and D24): after the falling edge that stored a valid symbol
(TCNT = 1, INACT = 0) a line held for TMAX + P_TIMEOUT * 2^P_TW cycles times out in the last of them, and
not before. In Idle and in Capturing with nothing pending the capture, FSET and VALID stand until then.
Where that edge completed a set, the analysis of the first cycle sets VALID and DATA, which then stand. At
the timeout the capture, FSET, INACT and VALID are cleared, while DATA and LOWD stay. -/
def Obligations.SilenceTimesOutAtItsCycle : Prop :=
  ∀ s : State, s.Ready → s.tcnt = 1 → s.inact = 0 →
    s.Holds (s.params.tmax + s.params.timeout * 2 ^ s.params.tw) →
    (s.pend = false →
      ∀ n, n < s.params.tmax + s.params.timeout * 2 ^ s.params.tw → ∃ t, Runs n s t ∧
        t.capt = s.capt ∧ t.fidx = s.fidx ∧ t.bidx = s.bidx ∧ t.fset = s.fset ∧ t.valid = s.valid ∧
        t.data = s.data ∧ t.lowd = s.lowd) ∧
    (s.pend = true →
      ∀ n, 1 ≤ n → n < s.params.tmax + s.params.timeout * 2 ^ s.params.tw → ∃ t, Runs n s t ∧
        t.capt = false ∧ t.fidx = 0 ∧ t.bidx = 0 ∧ t.fset = 0 ∧ (t.valid = true ↔ s.Unanimous) ∧
        t.data = (if s.Unanimous then s.newData else s.data) ∧ t.lowd = s.lowd) ∧
    (∃ t, Runs (s.params.tmax + s.params.timeout * 2 ^ s.params.tw) s t ∧
      t.capt = false ∧ t.fidx = 0 ∧ t.bidx = 0 ∧ t.fset = 0 ∧ t.inact = 0 ∧ t.valid = false ∧
      t.tcnt = 0 ∧ t.lowd = s.lowd ∧
      t.data = (if s.pend = true ∧ s.Unanimous then s.newData else s.data))

/-! ### The frame assembler -/

/-- R150 (decisions D4 and D14): START opens a capture: LOWD, the prologue, Capturing(0, 0), frame 0
cleared, INACT cleared; every other register and every FSET bit outside frame 0 is unchanged. -/
def Obligations.StartOpensACapture : Prop :=
  ∀ s : State, s.Ready → s.capt = false → s.dinq = false → s.din = true →
    ∃ m : FsetBits, (∀ a, m.getLsbD a = if a < 13 then false else s.fset.getLsbD a) ∧
      exec .start s = .next { s with
        dinq := true, tcnt := 1, lowd := s.tcnt, capt := true, fidx := 0, bidx := 0, fset := m,
        inact := 0 }

/-- R153: a valid symbol is stored at bit 12 - BIDX of frame FIDX, 1 for One and 0 for Zero; INACT is
cleared; and BIDX advances by 1 where it is below 12. -/
def Obligations.FallBitStoresASymbol : Prop :=
  ∀ (s : State) (b : Bool), s.Ready → s.symbol = (if b then .one else .zero) →
    ∃ t, exec .fallBit s = .next t ∧
      frameBit t.fset s.fidx.toNat (12 - s.bidx.toNat) = b ∧ t.inact = 0 ∧
      (s.bidx.toNat < 12 → t.bidx.toNat = s.bidx.toNat + 1 ∧ t.fidx = s.fidx ∧ t.capt = s.capt)

/-- R154: the last symbol of frame 0 or 1 completes the frame: the next frame, its header first, still
Capturing. -/
def Obligations.FrameCompleteGoesToTheNextFrame : Prop :=
  ∀ s : State, s.Ready → s.symbol ≠ .invalid → s.bidx = 12 → s.fidx.toNat < 2 →
    ∃ t, exec .fallBit s = .next t ∧ t.capt = true ∧ t.fidx.toNat = s.fidx.toNat + 1 ∧ t.bidx = 0

/-- R155: the last symbol of frame 2 completes the set: Idle, PEND = 1, INACT = 0, FSET as captured; and
in the next cycle, unless it is reset, the FrameSet is read and cleared. -/
def Obligations.SetCompleteHandsOver : Prop :=
  ∀ s : State, s.Ready → s.symbol ≠ .invalid → s.bidx = 12 → s.fidx = 2 →
    (∃ t, exec .fallBit s = .next t ∧ t.capt = false ∧ t.fidx = 0 ∧ t.bidx = 0 ∧ t.pend = true ∧
      t.inact = 0 ∧ frameBit t.fset 2 0 = decide (s.symbol = .one) ∧
      (∀ a, a ≠ 26 → t.fset.getLsbD a = s.fset.getLsbD a)) ∧
    (∀ t, s.rst = false → s.dinq = true → s.din = false → step s = .next t → t.rst = false →
      decodeConsumer t.consumerWord = .ok .analyze ∧
      ∃ u, step t = .next u ∧ u.pend = false ∧ u.fset = 0)

/-- R151, R153 to R155: the frame of a stored symbol: of FSET only the bit at 13 * FIDX + 12 - BIDX
changes, and LOWD, VALID, DATA, CHG, the configuration, the host's samples and the cycle count stay;
DINQ and TCNT take the prologue; PEND stays but where the set is complete. -/
def Obligations.FallBitStoreFrame : Prop :=
  ∀ s : State, s.Ready → s.capt = true → s.dinq = true → s.din = false → s.symbol ≠ .invalid →
    ∃ t, exec .fallBit s = .next t ∧
      (∀ a, a ≠ s.symbolAddress → t.fset.getLsbD a = s.fset.getLsbD a) ∧
      t.dinq = false ∧ t.tcnt = 1 ∧ t.lowd = s.lowd ∧ t.valid = s.valid ∧ t.data = s.data ∧
      t.chg = s.chg ∧ t.params = s.params ∧ t.hasReset = s.hasReset ∧
      t.stimulus = s.stimulus ∧ t.cycle = s.cycle ∧
      (t.pend = true ↔ s.pend = true ∨ s.bidx = 12 ∧ s.fidx = 2)

/-- R156, R170, R217 (decisions D11 and D24): an Invalid symbol is the full reset in its own cycle: the
symbol is not stored, PEND is 0, and DATA, CHG and LOWD are kept. -/
def Obligations.FallBitAbortsOnInvalid : Prop :=
  ∀ s : State, s.Ready → s.dinq = true → s.din = false → s.symbol = .invalid →
    exec .fallBit s = .next { s with
      dinq := false, tcnt := 1, capt := false, fidx := 0, bidx := 0, fset := 0, inact := 0,
      pend := false, valid := false }

/-- R172: in a cycle without reset the capture state changes only at a rising edge in Idle, at a falling
edge while Capturing, and at the timeout. -/
def Obligations.OnlyTheseCyclesMoveTheCaptureState : Prop :=
  ∀ s t : State, s.rst = false → step s = .next t →
    (t.capt ≠ s.capt ∨ t.fidx ≠ s.fidx ∨ t.bidx ≠ s.bidx) →
    (s.capt = false ∧ s.dinq = false ∧ s.din = true) ∨
    (s.capt = true ∧ s.dinq = true ∧ s.din = false) ∨ s.TimesOut

/-- R218, R256 (decisions D11, D13 and D15): after an abort by an Invalid symbol (the line is then low) or
by the inactivity timeout (at either level) the core is Idle, and stays so while the line is held, for
however many cycles. A rising edge then is a START. Where the line is high, the next falling edge is a
FALL_IDLE, and the rising edge after it, after however many low cycles, the START. -/
def Obligations.TheEdgeAfterAnAbortIsAStart : Prop :=
  ∀ s t : State, s.rst = false → s.Malformed ∨ s.TimesOut → step s = .next t →
    t.capt = false ∧ (s.Malformed → t.dinq = false) ∧
    ∀ n, t.Holds n → ∃ u, Runs n t u ∧ u.capt = false ∧ u.dinq = t.dinq ∧
      (u.rst = false → u.dinq = false → u.din = true → decodeCapture u.captureWord = .ok .start) ∧
      (u.rst = false → u.dinq = true → u.din = false →
        decodeCapture u.captureWord = .ok .fallIdle ∧
        ∃ v, step u = .next v ∧ ∀ m, v.Holds m → ∃ w, Runs m v w ∧ w.capt = false ∧
          (w.rst = false → w.din = true → decodeCapture w.captureWord = .ok .start))

/-! ### The consumer -/

/-- R180, R181, R183, R184 (decisions D16 and D17): three matching frames set VALID; DATA takes the data
field of frame 2 and CHG says whether that is a change; FSET and PEND are cleared, nothing else changes. -/
def Obligations.AnalyzeLatchesAUnanimousSet : Prop :=
  ∀ s : State, s.Ready → s.Unanimous →
    exec .analyze s = .next { s with
      valid := true, data := s.newData, chg := decide (s.newData ≠ s.data), fset := 0, pend := false }

/-- R182: with fewer than three matching frames ANALYZE clears VALID and CHG and leaves DATA; the capture
machinery is not reset. -/
def Obligations.AnalyzeRejectsAMismatch : Prop :=
  ∀ s : State, s.Ready → ¬ s.Unanimous →
    ∃ t, exec .analyze s = .next t ∧ t.valid = false ∧ t.chg = false ∧ t.data = s.data ∧
      t.capt = s.capt ∧ t.fidx = s.fidx ∧ t.bidx = s.bidx ∧ t.inact = s.inact

/-- R184: whatever the outcome ANALYZE clears every bit of FSET and PEND; with PEND = 1 the indices are
already 0; and no register of the capture agent is written. -/
def Obligations.AnalyzeConsumesTheFrameSet : Prop :=
  ∀ s : State, s.Ready → s.pend = true →
    s.fidx = 0 ∧ s.bidx = 0 ∧
    ∃ t, exec .analyze s = .next t ∧ (∀ a, t.fset.getLsbD a = false) ∧ t.pend = false ∧
      t.dinq = s.dinq ∧ t.tcnt = s.tcnt ∧ t.lowd = s.lowd ∧ t.capt = s.capt ∧ t.fidx = s.fidx ∧
      t.bidx = s.bidx ∧ t.inact = s.inact

/-- R185 (decision D20): CIDLE clears CHG and changes nothing else. -/
def Obligations.CidleClearsChg : Prop :=
  ∀ s : State, s.Ready → exec .cidle s = .next { s with chg := false }

/-- R181, R183: what an analysis leaves at the ports does not depend on the headers, nor on the data
fields of frames 0 and 1: two Ready states that agree on the address fields, the data field of frame 2,
DATA and P_ADDR come out alike. -/
def Obligations.AnalysisIgnoresHeadersAndEarlyData : Prop :=
  ∀ s₁ s₂ t₁ t₂ : State, s₁.params = s₂.params → s₁.data = s₂.data →
    (∀ k, k < 3 → readBits s₁.fset (13 * k + 4) 8 = readBits s₂.fset (13 * k + 4) 8) →
    s₁.newData = s₂.newData → exec .analyze s₁ = .next t₁ → exec .analyze s₂ = .next t₂ →
    t₁.ports = t₂.ports

/-- R187: a second analysis of a set with the data already latched changes no output. -/
def Obligations.IdenticalSetChangesNoOutput : Prop :=
  ∀ s : State, s.Ready → s.rst = false → s.pend = true → s.Unanimous → s.newData = s.data →
    s.valid = true → s.chg = false → ∃ t, step s = .next t ∧ t.ports = s.ports

/-- R200: where VALID rises with the data unchanged, VT rises, DOUT stays and CHG is 0. -/
def Obligations.RevalidationDoesNotRetrigger : Prop :=
  ∀ s : State, s.Ready → s.rst = false → s.pend = true → s.Unanimous → s.newData = s.data →
    s.valid = false →
    ∃ t, step s = .next t ∧ t.ports = { vt := true, dout := s.ports.dout, chg := false }

/-- R72, R186, R199: the FrameSet handoff. When a step completes a set, the next cycle, unless it is reset,
is the analysis of exactly the FrameSet the completing step left: FSET and PEND are then 0, the indices
still 0, and the ports show the outcome. That the analysis comes after one cycle and no more is a choice,
the spec's decision D18 (log entry 34). -/
def Obligations.FrameSetHandoff : Prop :=
  ∀ s t : State, s.Ready → s.rst = false → step s = .next t → t.pend = true → t.rst = false →
    ∃ u, step t = .next u ∧ u.pend = false ∧ u.fset = 0 ∧ u.fidx = 0 ∧ u.bidx = 0 ∧
      (u.ports.vt = true ↔ t.Unanimous) ∧
      u.ports.dout = (if t.Unanimous then t.newData else t.data) ∧
      (u.ports.chg = true ↔ t.Unanimous ∧ t.newData ≠ t.data)

/-! ### Registers seen over one cycle -/

/-- R29: in a cycle without reset PEND is 1 afterwards exactly when the cycle completes a set, so the
consumer and the full reset clear it; and while PEND = 1 a periodic tick leaves INACT alone. -/
def Obligations.PendIsSetBySetCompleteOnly : Prop :=
  (∀ s : State, s.Ready → s.rst = false → ∃ t, step s = .next t ∧
    (t.pend = true ↔ s.CompletesSet)) ∧
  (∀ s : State, s.Ready → s.pend = true → ∃ t, exec .ptick s = .next t ∧ t.inact = s.inact)

/-- R30, R195: VALID after a cycle without reset: the verdict of an analysis, 0 after an abort or a
timeout, and otherwise what it was; VT is VALID. -/
def Obligations.ValidFollowsAnalysisAbortAndTimeout : Prop :=
  ∀ s : State, s.Ready → s.rst = false → ∃ t, step s = .next t ∧
    (s.pend = true → (t.valid = true ↔ s.Unanimous)) ∧
    (s.pend = false → (s.Malformed ∨ s.TimesOut) → t.valid = false) ∧
    (s.pend = false → ¬ s.Malformed → ¬ s.TimesOut → t.valid = s.valid) ∧
    t.ports.vt = t.valid

/-- R32, R183, R196, R197 (decisions D17, D20 and D24): in a cycle without reset DATA changes only to the
data field of a unanimous set, and CHG is 1 afterwards exactly when DATA has changed; DOUT and CHG are
those registers. -/
def Obligations.DataChangesExactlyWithChg : Prop :=
  ∀ s : State, s.Ready → s.rst = false → ∃ t, step s = .next t ∧
    t.data = (if s.pend = true ∧ s.Unanimous then s.newData else s.data) ∧
    (t.chg = true ↔ t.data ≠ s.data) ∧
    t.ports.dout = t.data ∧ t.ports.chg = t.chg

/-- R32, R197, R247: CHG is a pulse of one cycle, and no pulse follows a settled state. -/
def Obligations.ChgIsAOneCyclePulse : Prop :=
  (∀ s t u : State, step s = .next t → t.chg = true → step t = .next u → u.chg = false) ∧
  (∀ s t : State, s.Settled → step s = .next t → t.chg = false)

/-- R224, R170, R172: the consumer's operations write no register of the capture agent. The capture agent's
operations write neither DATA nor CHG; of the consumer's registers their full reset writes VALID. Both leave
the configuration, the host's samples and the cycle count. -/
def Obligations.CrossAgentFrames : Prop :=
  (∀ (k : Instr) (s t : State), k = .cidle ∨ k = .analyze → exec k s = .next t →
    t.dinq = s.dinq ∧ t.tcnt = s.tcnt ∧ t.lowd = s.lowd ∧ t.capt = s.capt ∧ t.fidx = s.fidx ∧
    t.bidx = s.bidx ∧ t.inact = s.inact ∧ t.params = s.params ∧ t.stimulus = s.stimulus ∧
    t.cycle = s.cycle) ∧
  (∀ (c : Instr) (s t : State),
    c = .count ∨ c = .ptick ∨ c = .start ∨ c = .rise ∨ c = .fallIdle ∨ c = .fallBit →
    exec c s = .next t →
    t.data = s.data ∧ t.chg = s.chg ∧ t.params = s.params ∧ t.stimulus = s.stimulus ∧
    t.cycle = s.cycle)

/-- R63, R121, R122, R123, R124, R185: COUNT, RISE, FALL_IDLE, CIDLE, and a PTICK that is no timeout leave
every bit of FSET, the flags VALID, PEND and CAPT, both indices and DATA. (CIDLE clears CHG.) -/
def Obligations.NonStoringOperationsKeepFset : Prop :=
  ∀ (i : Instr) (s t : State),
    (i = .count ∨ i = .rise ∨ i = .fallIdle ∨ i = .cidle ∨
      (i = .ptick ∧ (s.pend = true ∨ s.inact ≠ s.params.timeout))) →
    exec i s = .next t →
    (∀ a, t.fset.getLsbD a = s.fset.getLsbD a) ∧ t.valid = s.valid ∧ t.pend = s.pend ∧
    t.capt = s.capt ∧ t.fidx = s.fidx ∧ t.bidx = s.bidx ∧ t.data = s.data

/-! ### Causes -/

/-- R210, R211, R212, R213 (decision D21): which operation raises which cause, in a Ready state, and that
RESET, START, RISE, FALL_IDLE, COUNT and CIDLE raise none. -/
def Obligations.CausesOfTheOperations : Prop :=
  ∀ s : State, s.Ready →
    causeOf .fallBit s = (if s.symbol = .invalid then .malformedBitTiming else .none) ∧
    causeOf .ptick s =
      (if s.pend = false ∧ s.inact = s.params.timeout then .inactivityTimeout else .none) ∧
    causeOf .analyze s = (if s.Unanimous then .none else .addressMismatch) ∧
    (∀ i, i = .resetCapture ∨ i = .resetConsumer ∨ i = .count ∨ i = .start ∨ i = .rise ∨
      i = .fallIdle ∨ i = .cidle → causeOf i s = .none)

/-- R216, R210: a cycle carries at most one cause: never one of each agent. -/
def Obligations.ACycleHasAtMostOneCause : Prop :=
  ∀ (s : State) (c k : Instr), s.Ready → decodeCapture s.captureWord = .ok c →
    decodeConsumer s.consumerWord = .ok k → causeOf c s = .none ∨ causeOf k s = .none

/-! ### RESET -/

/-- R240, R38 (decision D19): from any state of a circuit that exists, RESET in either control word gives
the reset state with DINQ = DIN; the configuration, the host's samples and the cycle count stay. -/
def Obligations.ResetWritesEveryRegister : Prop :=
  ∀ (s : State) (i : Instr), i = .resetCapture ∨ i = .resetConsumer → s.params.legal = true →
    exec i s = .next
      { params := s.params, hasReset := true, dinq := s.din, tcnt := 0, lowd := 0, capt := false,
        fidx := 0, bidx := 0, fset := 0, inact := 0, pend := false, valid := false, data := 0,
        chg := false, stimulus := s.stimulus, cycle := s.cycle }

/-- R240, R242: a cycle with RST = 1 gives a state that nothing of the registers before it shows in,
before the first reset and outside the invariants too. -/
def Obligations.ResetCycleForgetsTheRegisters : Prop :=
  ∀ s₁ s₂ : State, s₁.params = s₂.params → s₁.params.legal = true → s₁.stimulus = s₂.stimulus →
    s₁.cycle = s₂.cycle → s₁.rst = true → ∃ t, step s₁ = .next t ∧ step s₂ = .next t

/-- R243 (decisions D15 and D19): from the last reset cycle, with DIN = d in it, the line may be held at d
for any number n of cycles: the core stays Idle with nothing at its ports, and the cycle after them is a
PTICK exactly where it comes a multiple of 2^P_TW cycles after the reset cycle, and else a COUNT, unless it
has an edge. With d low the first rising edge is a START. With d high the first falling edge is a
FALL_IDLE, and the rising edge after it, after however many low cycles, a START. -/
def Obligations.FirstEdgesAfterReset : Prop :=
  ∀ s t : State, s.rst = true → step s = .next t → ∀ n, t.Holds n →
    ∃ u, Runs n t u ∧ u.capt = false ∧ u.fset = 0 ∧ u.dinq = s.din ∧
      u.ports = { vt := false, dout := 0, chg := false } ∧
      (u.rst = false → u.din = s.din → decodeCapture u.captureWord =
        .ok (if (n + 1) % 2 ^ s.params.tw = 0 then .ptick else .count)) ∧
      (u.rst = false → s.din = false → u.din = true →
        decodeCapture u.captureWord = .ok .start) ∧
      (u.rst = false → s.din = true → u.din = false →
        decodeCapture u.captureWord = .ok .fallIdle ∧
        ∃ v, step u = .next v ∧ ∀ m, v.Holds m → ∃ w, Runs m v w ∧ w.capt = false ∧
          (w.rst = false → w.din = true → decodeCapture w.captureWord = .ok .start))

/-! ### A whole symbol -/

/-- R80, R81, R125, R151 to R156 (decisions D2, D4, D9, D10, D11 and D24): from the falling edge that began
a low phase, while Capturing, a low phase of l cycles, a high phase of h cycles and the falling edge that
ends it, each phase at most TMAX long, run without a stop; the symbol is decided at that edge by
classify(l, h), the header by h alone. Invalid aborts in that cycle and keeps DATA; One and Zero are stored
at 13 * FIDX + 12 - BIDX and advance the capture. -/
def Obligations.AWholeSymbolIsReceived : Prop :=
  ∀ (s : State) (l h : Nat) (rest : List Pins), s.Ready → s.capt = true → s.dinq = false →
    s.tcnt = 1 → 1 ≤ l → l ≤ s.params.tmax → 1 ≤ h → h ≤ s.params.tmax →
    s.stimulus = List.replicate (l - 1) { rst := false, din := false } ++
      (List.replicate h { rst := false, din := true } ++ { rst := false, din := false } :: rest) →
    ∃ t, Runs (l + h) s t ∧ t.stimulus = rest ∧ t.dinq = false ∧ t.tcnt = 1 ∧
      (classify s.params l h (s.bidx == 0) = .invalid →
        t.capt = false ∧ t.fset = 0 ∧ t.inact = 0 ∧ t.pend = false ∧ t.valid = false ∧
        t.data = s.data) ∧
      (∀ b : Bool, classify s.params l h (s.bidx == 0) = (if b then .one else .zero) →
        frameBit t.fset s.fidx.toNat (12 - s.bidx.toNat) = b ∧
        (∀ a, a ≠ s.symbolAddress → t.fset.getLsbD a = s.fset.getLsbD a) ∧
        t.inact = 0 ∧ t.valid = s.valid ∧ t.data = s.data ∧
        (s.bidx.toNat < 12 → t.capt = true ∧ t.fidx = s.fidx ∧ t.bidx.toNat = s.bidx.toNat + 1) ∧
        (s.bidx = 12 → s.fidx.toNat < 2 →
          t.capt = true ∧ t.fidx.toNat = s.fidx.toNat + 1 ∧ t.bidx = 0) ∧
        (s.bidx = 12 → s.fidx = 2 → t.capt = false ∧ t.pend = true))
end

