-- ==== Sys2Proof/Laws/Decode.lean ====
section
/-! SUPPORT. Which operations a cycle runs, as a case split on the registers and pins (R90). -/

namespace Sys2Proof.Machine

/-- RISE and FALL are never both 1 (R86). -/
theorem not_rise_and_fall (s : State) : (s.riseEdge && s.fallEdge) = false := by
  simp only [State.riseEdge, State.fallEdge]
  cases s.dinq <;> simp

/-- The capture operation of a cycle (R90): RESET first, then the edges by CAPT, then OVF. -/
theorem captureOp_eq (s : State) :
    s.captureOp = .ok
      (if s.rst then .resetCapture
       else if s.riseEdge then (if s.capt then .rise else .start)
       else if s.fallEdge then (if s.capt then .fallBit else .fallIdle)
       else if s.ovf then .ptick else .count) := by
  have h := not_rise_and_fall s
  simp only [State.captureOp, State.captureWord]
  revert h
  generalize s.rst = r
  generalize s.capt = c
  generalize s.riseEdge = u
  generalize s.fallEdge = d
  generalize s.ovf = o
  revert r c u d o
  decide

/-- The consumer operation of a cycle (R90). -/
theorem consumerOp_eq (s : State) :
    s.consumerOp = .ok
      (if s.rst then .resetConsumer else if s.pend then .analyze else .cidle) := by
  simp only [State.consumerOp, State.consumerWord]
  generalize s.rst = r
  generalize s.pend = p
  revert r p
  decide

end Sys2Proof.Machine
end

