-- ==== Sys2Proof/Laws/Memory.lean ====
section
/-! SUPPORT. What the FrameSet primitives do, bit by bit, and that the accesses of R63 lie inside one
frame. -/

namespace Sys2Proof.Machine

theorem inFrame_iff {a n : Nat} : inFrame a n = true ↔ a % 13 + n ≤ 13 ∧ a < 39 := by
  simp [inFrame]

/-- An access inside one frame stays inside FSET. -/
theorem inFrame_bound {a n : Nat} (h : inFrame a n = true) : a + n ≤ 39 := by
  rw [inFrame_iff] at h
  omega

/-- Bit i of a read is the FSET bit at address a + i. -/
theorem getLsbD_readBits (m : FsetBits) (a n i : Nat) :
    (readBits m a n).getLsbD i = (decide (i < n) && m.getLsbD (a + i)) := by
  simp [readBits]

/-- A write changes exactly the bits at addresses a to a + n - 1. -/
theorem getLsbD_writeBits (m : FsetBits) (a n : Nat) (v : BitVec n) (h : a + n ≤ 39) (j : Nat) :
    (writeBits m a n v).getLsbD j =
      if a ≤ j ∧ j < a + n then v.getLsbD (j - a) else m.getLsbD j := by
  simp only [writeBits, BitVec.getLsbD_or, BitVec.getLsbD_and, BitVec.getLsbD_not,
    BitVec.getLsbD_shiftLeft, BitVec.getLsbD_setWidth, BitVec.getLsbD_allOnes]
  by_cases hj : j < 39
  · by_cases h1 : a ≤ j
    · by_cases h2 : j < a + n
      · have h3 : j - a < n := by omega
        have h4 : j - a < 39 := by omega
        have h5 : ¬ j < a := by omega
        simp [hj, h1, h2, h3, h4, h5]
      · have h3 : ¬ j - a < n := by omega
        have hv : v.getLsbD (j - a) = false := BitVec.getLsbD_of_ge _ _ (by omega)
        simp [hj, h2, h3, hv]
    · have h5 : j < a := by omega
      simp [hj, h1, h5]
  · have hm : m.getLsbD j = false := BitVec.getLsbD_of_ge _ _ (by omega)
    have h2 : ¬ (a ≤ j ∧ j < a + n) := by omega
    simp [hj, h2, hm]

theorem memRead_inFrame {a n : Nat} (m : FsetBits) (h : inFrame a n = true) :
    memRead m a n = .ok (readBits m a n) := by simp [memRead, h]

theorem memWrite_inFrame {a n : Nat} (m : FsetBits) (v : BitVec n) (h : inFrame a n = true) :
    memWrite m a n v = .ok (writeBits m a n v) := by simp [memWrite, h]

/-- Clearing the three frames leaves 0, and is never a fault. -/
@[simp] theorem clearFset_eq (m : FsetBits) : clearFset m = .ok 0 := by
  have h : writeBits (writeBits (writeBits m 0 13 0) 13 13 0) 26 13 0 = 0 := by
    apply BitVec.eq_of_getLsbD_eq
    intro j hj
    rw [getLsbD_writeBits _ _ _ _ (by omega), getLsbD_writeBits _ _ _ _ (by omega),
      getLsbD_writeBits _ _ _ _ (by omega)]
    by_cases h1 : 26 ≤ j
    · simp [h1, hj]
    · by_cases h2 : 13 ≤ j
      · have h3 : j < 26 := by omega
        simp [h1, h2, h3]
      · have h3 : j < 13 := by omega
        simp [h1, h2, h3]
  show Except.ok (writeBits (writeBits (writeBits m 0 13 0) 13 13 0) 26 13 0) = _
  rw [h]

/-- Clearing frame 0 of a clear FSET changes nothing. -/
@[simp] theorem writeBits_zero_frame0 : writeBits 0 0 13 0 = 0 := by decide

/-- The frame word and the frame bit are views of the same bits. -/
theorem getLsbD_frameWord (m : FsetBits) (k p : Nat) (hp : p < 13) :
    (frameWord m k).getLsbD p = frameBit m k p := by
  rw [frameWord, getLsbD_readBits, frameBit]
  simp [hp]

end Sys2Proof.Machine
end

