-- ==== Sys2Proof/Laws/State.lean ====
section
/-! SUPPORT. One lemma for each field and each named update of State, true by unfolding, so that no later
proof unfolds a record update. -/

namespace Sys2Proof.Machine

/-! ### State.prologue -/

@[simp] theorem State.prologue_params (s : State) : (s.prologue).params = s.params := rfl
@[simp] theorem State.prologue_hasReset (s : State) : (s.prologue).hasReset = s.hasReset := rfl
@[simp] theorem State.prologue_dinq (s : State) : (s.prologue).dinq = s.din := rfl
@[simp] theorem State.prologue_tcnt (s : State) : (s.prologue).tcnt = if s.edge then 1 else (s.tcnt + 1) % 2 ^ s.params.tw := rfl
@[simp] theorem State.prologue_lowd (s : State) : (s.prologue).lowd = s.lowd := rfl
@[simp] theorem State.prologue_capt (s : State) : (s.prologue).capt = s.capt := rfl
@[simp] theorem State.prologue_fidx (s : State) : (s.prologue).fidx = s.fidx := rfl
@[simp] theorem State.prologue_bidx (s : State) : (s.prologue).bidx = s.bidx := rfl
@[simp] theorem State.prologue_fset (s : State) : (s.prologue).fset = s.fset := rfl
@[simp] theorem State.prologue_inact (s : State) : (s.prologue).inact = s.inact := rfl
@[simp] theorem State.prologue_pend (s : State) : (s.prologue).pend = s.pend := rfl
@[simp] theorem State.prologue_valid (s : State) : (s.prologue).valid = s.valid := rfl
@[simp] theorem State.prologue_data (s : State) : (s.prologue).data = s.data := rfl
@[simp] theorem State.prologue_chg (s : State) : (s.prologue).chg = s.chg := rfl
@[simp] theorem State.prologue_stimulus (s : State) : (s.prologue).stimulus = s.stimulus := rfl
@[simp] theorem State.prologue_cycle (s : State) : (s.prologue).cycle = s.cycle := rfl

/-! ### State.toIdle -/

@[simp] theorem State.toIdle_params (s : State) : (s.toIdle).params = s.params := rfl
@[simp] theorem State.toIdle_hasReset (s : State) : (s.toIdle).hasReset = s.hasReset := rfl
@[simp] theorem State.toIdle_dinq (s : State) : (s.toIdle).dinq = s.dinq := rfl
@[simp] theorem State.toIdle_tcnt (s : State) : (s.toIdle).tcnt = s.tcnt := rfl
@[simp] theorem State.toIdle_lowd (s : State) : (s.toIdle).lowd = s.lowd := rfl
@[simp] theorem State.toIdle_capt (s : State) : (s.toIdle).capt = false := rfl
@[simp] theorem State.toIdle_fidx (s : State) : (s.toIdle).fidx = 0 := rfl
@[simp] theorem State.toIdle_bidx (s : State) : (s.toIdle).bidx = 0 := rfl
@[simp] theorem State.toIdle_fset (s : State) : (s.toIdle).fset = s.fset := rfl
@[simp] theorem State.toIdle_inact (s : State) : (s.toIdle).inact = s.inact := rfl
@[simp] theorem State.toIdle_pend (s : State) : (s.toIdle).pend = s.pend := rfl
@[simp] theorem State.toIdle_valid (s : State) : (s.toIdle).valid = s.valid := rfl
@[simp] theorem State.toIdle_data (s : State) : (s.toIdle).data = s.data := rfl
@[simp] theorem State.toIdle_chg (s : State) : (s.toIdle).chg = s.chg := rfl
@[simp] theorem State.toIdle_stimulus (s : State) : (s.toIdle).stimulus = s.stimulus := rfl
@[simp] theorem State.toIdle_cycle (s : State) : (s.toIdle).cycle = s.cycle := rfl

/-! ### State.toCapturing -/

@[simp] theorem State.toCapturing_params (s : State) (f : BitVec 2) (b : BitVec 4) : (s.toCapturing f b).params = s.params := rfl
@[simp] theorem State.toCapturing_hasReset (s : State) (f : BitVec 2) (b : BitVec 4) : (s.toCapturing f b).hasReset = s.hasReset := rfl
@[simp] theorem State.toCapturing_dinq (s : State) (f : BitVec 2) (b : BitVec 4) : (s.toCapturing f b).dinq = s.dinq := rfl
@[simp] theorem State.toCapturing_tcnt (s : State) (f : BitVec 2) (b : BitVec 4) : (s.toCapturing f b).tcnt = s.tcnt := rfl
@[simp] theorem State.toCapturing_lowd (s : State) (f : BitVec 2) (b : BitVec 4) : (s.toCapturing f b).lowd = s.lowd := rfl
@[simp] theorem State.toCapturing_capt (s : State) (f : BitVec 2) (b : BitVec 4) : (s.toCapturing f b).capt = true := rfl
@[simp] theorem State.toCapturing_fidx (s : State) (f : BitVec 2) (b : BitVec 4) : (s.toCapturing f b).fidx = f := rfl
@[simp] theorem State.toCapturing_bidx (s : State) (f : BitVec 2) (b : BitVec 4) : (s.toCapturing f b).bidx = b := rfl
@[simp] theorem State.toCapturing_fset (s : State) (f : BitVec 2) (b : BitVec 4) : (s.toCapturing f b).fset = s.fset := rfl
@[simp] theorem State.toCapturing_inact (s : State) (f : BitVec 2) (b : BitVec 4) : (s.toCapturing f b).inact = s.inact := rfl
@[simp] theorem State.toCapturing_pend (s : State) (f : BitVec 2) (b : BitVec 4) : (s.toCapturing f b).pend = s.pend := rfl
@[simp] theorem State.toCapturing_valid (s : State) (f : BitVec 2) (b : BitVec 4) : (s.toCapturing f b).valid = s.valid := rfl
@[simp] theorem State.toCapturing_data (s : State) (f : BitVec 2) (b : BitVec 4) : (s.toCapturing f b).data = s.data := rfl
@[simp] theorem State.toCapturing_chg (s : State) (f : BitVec 2) (b : BitVec 4) : (s.toCapturing f b).chg = s.chg := rfl
@[simp] theorem State.toCapturing_stimulus (s : State) (f : BitVec 2) (b : BitVec 4) : (s.toCapturing f b).stimulus = s.stimulus := rfl
@[simp] theorem State.toCapturing_cycle (s : State) (f : BitVec 2) (b : BitVec 4) : (s.toCapturing f b).cycle = s.cycle := rfl

/-! ### State.endCycle -/

@[simp] theorem State.endCycle_params (s : State) : (s.endCycle).params = s.params := rfl
@[simp] theorem State.endCycle_hasReset (s : State) : (s.endCycle).hasReset = s.hasReset := rfl
@[simp] theorem State.endCycle_dinq (s : State) : (s.endCycle).dinq = s.dinq := rfl
@[simp] theorem State.endCycle_tcnt (s : State) : (s.endCycle).tcnt = s.tcnt := rfl
@[simp] theorem State.endCycle_lowd (s : State) : (s.endCycle).lowd = s.lowd := rfl
@[simp] theorem State.endCycle_capt (s : State) : (s.endCycle).capt = s.capt := rfl
@[simp] theorem State.endCycle_fidx (s : State) : (s.endCycle).fidx = s.fidx := rfl
@[simp] theorem State.endCycle_bidx (s : State) : (s.endCycle).bidx = s.bidx := rfl
@[simp] theorem State.endCycle_fset (s : State) : (s.endCycle).fset = s.fset := rfl
@[simp] theorem State.endCycle_inact (s : State) : (s.endCycle).inact = s.inact := rfl
@[simp] theorem State.endCycle_pend (s : State) : (s.endCycle).pend = s.pend := rfl
@[simp] theorem State.endCycle_valid (s : State) : (s.endCycle).valid = s.valid := rfl
@[simp] theorem State.endCycle_data (s : State) : (s.endCycle).data = s.data := rfl
@[simp] theorem State.endCycle_chg (s : State) : (s.endCycle).chg = s.chg := rfl
@[simp] theorem State.endCycle_stimulus (s : State) : (s.endCycle).stimulus = s.stimulus.tail := rfl
@[simp] theorem State.endCycle_cycle (s : State) : (s.endCycle).cycle = s.cycle + 1 := rfl

/-! ### mergeWrites_analyze (ANALYZE as the consumer operation) -/

@[simp] theorem mergeWrites_analyze_params (sc sk : State) : (mergeWrites .analyze sc sk).params = sc.params := rfl
@[simp] theorem mergeWrites_analyze_hasReset (sc sk : State) : (mergeWrites .analyze sc sk).hasReset = sc.hasReset := rfl
@[simp] theorem mergeWrites_analyze_dinq (sc sk : State) : (mergeWrites .analyze sc sk).dinq = sc.dinq := rfl
@[simp] theorem mergeWrites_analyze_tcnt (sc sk : State) : (mergeWrites .analyze sc sk).tcnt = sc.tcnt := rfl
@[simp] theorem mergeWrites_analyze_lowd (sc sk : State) : (mergeWrites .analyze sc sk).lowd = sc.lowd := rfl
@[simp] theorem mergeWrites_analyze_capt (sc sk : State) : (mergeWrites .analyze sc sk).capt = sc.capt := rfl
@[simp] theorem mergeWrites_analyze_fidx (sc sk : State) : (mergeWrites .analyze sc sk).fidx = sc.fidx := rfl
@[simp] theorem mergeWrites_analyze_bidx (sc sk : State) : (mergeWrites .analyze sc sk).bidx = sc.bidx := rfl
@[simp] theorem mergeWrites_analyze_fset (sc sk : State) : (mergeWrites .analyze sc sk).fset = sk.fset := rfl
@[simp] theorem mergeWrites_analyze_inact (sc sk : State) : (mergeWrites .analyze sc sk).inact = sc.inact := rfl
@[simp] theorem mergeWrites_analyze_pend (sc sk : State) : (mergeWrites .analyze sc sk).pend = sk.pend := rfl
@[simp] theorem mergeWrites_analyze_valid (sc sk : State) : (mergeWrites .analyze sc sk).valid = sk.valid := rfl
@[simp] theorem mergeWrites_analyze_data (sc sk : State) : (mergeWrites .analyze sc sk).data = sk.data := rfl
@[simp] theorem mergeWrites_analyze_chg (sc sk : State) : (mergeWrites .analyze sc sk).chg = sk.chg := rfl
@[simp] theorem mergeWrites_analyze_stimulus (sc sk : State) : (mergeWrites .analyze sc sk).stimulus = sc.stimulus := rfl
@[simp] theorem mergeWrites_analyze_cycle (sc sk : State) : (mergeWrites .analyze sc sk).cycle = sc.cycle := rfl

/-! ### mergeWrites_cidle (CIDLE as the consumer operation) -/

@[simp] theorem mergeWrites_cidle_params (sc sk : State) : (mergeWrites .cidle sc sk).params = sc.params := rfl
@[simp] theorem mergeWrites_cidle_hasReset (sc sk : State) : (mergeWrites .cidle sc sk).hasReset = sc.hasReset := rfl
@[simp] theorem mergeWrites_cidle_dinq (sc sk : State) : (mergeWrites .cidle sc sk).dinq = sc.dinq := rfl
@[simp] theorem mergeWrites_cidle_tcnt (sc sk : State) : (mergeWrites .cidle sc sk).tcnt = sc.tcnt := rfl
@[simp] theorem mergeWrites_cidle_lowd (sc sk : State) : (mergeWrites .cidle sc sk).lowd = sc.lowd := rfl
@[simp] theorem mergeWrites_cidle_capt (sc sk : State) : (mergeWrites .cidle sc sk).capt = sc.capt := rfl
@[simp] theorem mergeWrites_cidle_fidx (sc sk : State) : (mergeWrites .cidle sc sk).fidx = sc.fidx := rfl
@[simp] theorem mergeWrites_cidle_bidx (sc sk : State) : (mergeWrites .cidle sc sk).bidx = sc.bidx := rfl
@[simp] theorem mergeWrites_cidle_fset (sc sk : State) : (mergeWrites .cidle sc sk).fset = sc.fset := rfl
@[simp] theorem mergeWrites_cidle_inact (sc sk : State) : (mergeWrites .cidle sc sk).inact = sc.inact := rfl
@[simp] theorem mergeWrites_cidle_pend (sc sk : State) : (mergeWrites .cidle sc sk).pend = sc.pend := rfl
@[simp] theorem mergeWrites_cidle_valid (sc sk : State) : (mergeWrites .cidle sc sk).valid = sc.valid := rfl
@[simp] theorem mergeWrites_cidle_data (sc sk : State) : (mergeWrites .cidle sc sk).data = sc.data := rfl
@[simp] theorem mergeWrites_cidle_chg (sc sk : State) : (mergeWrites .cidle sc sk).chg = sk.chg := rfl
@[simp] theorem mergeWrites_cidle_stimulus (sc sk : State) : (mergeWrites .cidle sc sk).stimulus = sc.stimulus := rfl
@[simp] theorem mergeWrites_cidle_cycle (sc sk : State) : (mergeWrites .cidle sc sk).cycle = sc.cycle := rfl

@[simp] theorem mergeWrites_resetConsumer (sc sk : State) : mergeWrites .resetConsumer sc sk = sk := rfl

end Sys2Proof.Machine
end

