-- ==== Sys2Proof/Laws/Ops.lean ====
section
/-! SUPPORT. One lemma for each shared operation: everything it can do. -/

namespace Sys2Proof.Machine

/-! ### When an operation has a meaning -/

theorem refusal_eq_none_iff (s : State) : s.refusal = none ↔ s.Ready := by
  constructor
  · intro h
    unfold State.refusal at h
    split at h
    · cases h
    · split at h
      · cases h
      · split at h
        · exact ⟨by simp_all only [Bool.not_eq_false], by simp_all only [Bool.not_eq_false], ‹_›⟩
        · cases h
  · rintro ⟨h1, h2, h3⟩
    rw [State.refusal, if_neg (by simp only [h1]; decide), if_neg (by simp only [h2]; decide), if_pos h3]

theorem refusal_of_ready {s : State} (h : s.Ready) : s.refusal = none :=
  (refusal_eq_none_iff s).2 h

theorem resetRefusal_eq_none_iff (s : State) : s.resetRefusal = none ↔ s.params.legal = true := by
  unfold State.resetRefusal
  cases s.params.legal <;> simp

/-- An operation answers a next state exactly when nothing refuses it and its effect is no fault. -/
theorem conclude_eq_next_iff {r : Option Refusal} {e : Except Fault Effect} {t : State} :
    conclude r e = .next t ↔ r = none ∧ ∃ x, e = .ok x ∧ x.after = t := by
  cases r with
  | some r => simp [conclude]
  | none =>
    cases e with
    | error f => simp [conclude]
    | ok x => simp [conclude]

@[simp] theorem conclude_none_ok (x : Effect) : conclude none (.ok x) = .next x.after := rfl

@[simp] theorem conclude_some (r : Refusal) (e : Except Fault Effect) :
    conclude (some r) e = .refused r := rfl

/-! ### The full reset and RESET -/

/-- The full reset (R170), and never a fault. -/
@[simp] theorem fullReset_eq (s : State) :
    s.fullReset = .ok
      { s with capt := false, fidx := 0, bidx := 0, fset := 0, inact := 0, pend := false,
               valid := false } := by
  simp [State.fullReset, State.toIdle, Bind.bind, Except.bind]

@[simp] theorem raiseAbort_eq (c : Cause) (s : State) :
    raiseAbort c s = .ok
      { after := { s with capt := false, fidx := 0, bidx := 0, fset := 0, inact := 0, pend := false,
                          valid := false }
        cause := c } := by
  simp [raiseAbort, Bind.bind, Except.bind]

/-- RESET writes every register of the core (R240), and is never a fault. -/
@[simp] theorem resetEffect_eq (s : State) :
    resetEffect s = .ok
      { after :=
          { params := s.params, hasReset := true, dinq := s.din, tcnt := 0, lowd := 0, capt := false,
            fidx := 0, bidx := 0, fset := 0, inact := 0, pend := false, valid := false, data := 0,
            chg := false, stimulus := s.stimulus, cycle := s.cycle }
        cause := .none } := by
  simp [resetEffect, quiet, State.resetRegisters, State.toIdle, Bind.bind, Except.bind]

/-! ### Symbols and fields -/

/-- Where the indices are in range, the symbol's address lies inside frame FIDX. -/
theorem inFrame_symbolAddress {s : State} (h : s.Inv3) : inFrame s.symbolAddress 1 = true := by
  obtain ⟨h1, h2⟩ := h
  rw [inFrame_iff]
  simp only [State.symbolAddress, State.symbolPosition]
  omega

/-- Storing a symbol: one bit of FSET, INACT, and the capture state's advance (R153 to R155). -/
theorem storeSymbol_eq {s : State} (h : s.Inv3) (b : Bool) :
    storeSymbol s b = .ok
      { after := advanceCapture s
          { s.prologue with
            fset := writeBits s.fset s.symbolAddress 1 (BitVec.ofBool b), inact := 0 }
        cause := .none } := by
  simp [storeSymbol, quiet, memWrite_inFrame _ _ (inFrame_symbolAddress h), Bind.bind, Except.bind]

theorem startEffect_eq (s : State) :
    startEffect s = .ok
      { after := { s.prologue.toCapturing 0 0 with
                   lowd := s.tcnt, fset := writeBits s.fset 0 13 0, inact := 0 }
        cause := .none } := rfl

theorem addressField_eq (s : State) {k : Nat} (h : k < 3) :
    s.addressField k = .ok (readBits s.fset (13 * k + 4) 8) :=
  memRead_inFrame _ (by rw [inFrame_iff]; omega)

theorem dataField_eq (s : State) : s.dataField = .ok (readBits s.fset 26 4) :=
  memRead_inFrame _ (by decide)

/-- Three matches are three frames that match. -/
theorem matchCount_eq_three {a b c : Bool} :
    matchCount a b c = 3 ↔ a = true ∧ b = true ∧ c = true := by
  cases a <;> cases b <;> cases c <;> decide

/-- ANALYZE (R180): the latch by the number of matching frames, and the FrameSet consumed. -/
theorem analyzeEffect_eq (s : State) :
    analyzeEffect s = .ok
      (let e := latch s
        (matchCount (addressMatches s.params (readBits s.fset 4 8))
          (addressMatches s.params (readBits s.fset 17 8))
          (addressMatches s.params (readBits s.fset 30 8)))
        (readBits s.fset 26 4)
       { e with after := { e.after with fset := 0, pend := false } }) := by
  simp [analyzeEffect, addressField_eq, dataField_eq, Bind.bind, Except.bind]

/-! ### The merge -/

/-- A cycle answers a next state exactly when both operations do. -/
theorem joinAgents_eq_next_iff {k : Instr} {c w : Host.Outcome State Fault Refusal} {t : State} :
    joinAgents k c w = .next t ↔
      ∃ sc sk, c = .next sc ∧ w = .next sk ∧ t = (mergeWrites k sc sk).endCycle := by
  cases c <;> cases w <;> simp [joinAgents, eq_comm]

end Sys2Proof.Machine
end

