-- ==== Sys2Proof/Laws/Step.lean ====
section
/-! SUPPORT. What a step can do, said once. -/

namespace Sys2Proof.Machine

/-- If a step answers t, then the operations the cycle decodes both answered, and t is their writes
merged at the end of the cycle. -/
theorem step_inversion {s t : State} (h : step s = .next t) :
    ∃ c k sc sk, s.captureOp = .ok c ∧ s.consumerOp = .ok k ∧ exec c s = .next sc ∧
      exec k s = .next sk ∧ t = (mergeWrites k sc sk).endCycle := by
  unfold step at h
  rw [captureOp_eq, consumerOp_eq] at h
  obtain ⟨sc, sk, h1, h2, h3⟩ := joinAgents_eq_next_iff.1 h
  exact ⟨_, _, sc, sk, captureOp_eq s, consumerOp_eq s, h1, h2, h3⟩

/-- Every operation but RESET concludes its effect behind the one refusal. -/
theorem exec_eq_conclude (s : State) {i : Instr} (hc : i ≠ .resetCapture) (hk : i ≠ .resetConsumer) :
    exec i s = conclude s.refusal (effectOf i s) := by
  cases i <;> first | contradiction | rfl

/-- A state that is not ready runs nothing but RESET. -/
theorem ready_of_exec_next {i : Instr} {s t : State} (h : exec i s = .next t)
    (hc : i ≠ .resetCapture) (hk : i ≠ .resetConsumer) : s.Ready := by
  rw [exec_eq_conclude s hc hk] at h
  exact (refusal_eq_none_iff s).1 (conclude_eq_next_iff.1 h).1

/-- A run of n + 1 steps from a state whose step answers t is a run of n steps from t. -/
theorem coreRun_succ (M : Host.Core) {s t : M.State} (h : M.step s = .next t) (n : Nat) :
    M.run (n + 1) s = M.run n t := by
  rw [Host.Core.run, h]

/-- The same of this machine. -/
theorem run_succ_of_step {s t : State} (h : step s = .next t) (n : Nat) :
    Host.Core.run Sys2Proof.core (n + 1) s = Host.Core.run Sys2Proof.core n t :=
  coreRun_succ Sys2Proof.core h n

end Sys2Proof.Machine
end

