-- ==== Sys2Proof/Laws/Cycle.lean ====
section
/-! SUPPORT. The whole cycle in closed form, from any state: the one case split a proof about `step`
needs. -/

namespace Sys2Proof.Machine

/-- What the capture agent leaves of a ready state in a cycle without reset (R120 to R124, R150 to R156,
R171), operation by operation. -/
def State.captureAfter (s : State) : State :=
  if s.riseEdge then
    if s.capt then { s.prologue with lowd := s.tcnt }
    else { s.prologue.toCapturing 0 0 with
           lowd := s.tcnt, fset := writeBits s.fset 0 13 0, inact := 0 }
  else if s.fallEdge then
    if s.capt then
      match s.symbol with
      | .invalid => s.prologue.aborted
      | .one => advanceCapture s
          { s.prologue with
            fset := writeBits s.fset s.symbolAddress 1 (BitVec.ofBool true), inact := 0 }
      | .zero => advanceCapture s
          { s.prologue with
            fset := writeBits s.fset s.symbolAddress 1 (BitVec.ofBool false), inact := 0 }
    else s.prologue
  else if s.ovf then
    if s.pend then s.prologue
    else if s.inact = s.params.timeout then s.prologue.aborted
    else { s.prologue with inact := s.inact + 1 }
  else s.prologue

/-- What a cycle without reset leaves of a ready state: the capture agent's writes, under the consumer's
where an analysis is pending (R65). -/
def State.cycleAfter (s : State) : State :=
  State.endCycle
    { s.captureAfter with
      fset := if s.pend then 0 else s.captureAfter.fset
      pend := if s.pend then false else s.captureAfter.pend
      valid := if s.pend then decide s.Unanimous else s.captureAfter.valid
      data := if s.pend = true ∧ s.Unanimous then s.newData else s.data
      chg := decide (s.pend = true ∧ s.Unanimous ∧ s.newData ≠ s.data) }

/-- What a reset cycle leaves of any state (R240). -/
def State.resetAfter (s : State) : State :=
  { params := s.params, hasReset := true, dinq := s.din, tcnt := 0, lowd := 0, capt := false,
    fidx := 0, bidx := 0, fset := 0, inact := 0, pend := false, valid := false, data := 0,
    chg := false, stimulus := s.stimulus.tail, cycle := s.cycle + 1 }

/-- Three matching frames, as the validator counts them (R181). -/
theorem matchCount_eq_three_iff (s : State) :
    matchCount (addressMatches s.params (readBits s.fset 4 8))
      (addressMatches s.params (readBits s.fset 17 8))
      (addressMatches s.params (readBits s.fset 30 8)) = 3 ↔ s.Unanimous := by
  rw [matchCount_eq_three]
  simp [addressMatches]

/-- ANALYZE in one record: the verdict, the data it takes, the pulse, and the FrameSet consumed
(R180 to R184). -/
theorem analyzeEffect_after (s : State) :
    ∃ x, analyzeEffect s = .ok
      { after :=
          { s with
            valid := decide s.Unanimous
            data := if s.Unanimous then s.newData else s.data
            chg := decide (s.Unanimous ∧ s.newData ≠ s.data)
            fset := 0
            pend := false }
        cause := x } := by
  rw [analyzeEffect_eq]
  simp only [latch, matchCount_eq_three_iff]
  by_cases hu : s.Unanimous
  · by_cases hd : s.newData = s.data
    · rw [if_pos hu, if_pos hd, decide_eq_true hu, if_pos hu]
      exact ⟨.none, by simp [hd]⟩
    · rw [if_pos hu, if_neg hd, decide_eq_true hu, if_pos hu, decide_eq_true (And.intro hu hd)]
      exact ⟨_, rfl⟩
  · rw [if_neg hu, decide_eq_false hu, if_neg hu, decide_eq_false (fun h => hu h.1)]
    exact ⟨_, rfl⟩

/-- The capture operation of a cycle without reset is none of the consumer's nor a RESET, and its effect
is `captureAfter`, wherever the indices are in range. -/
theorem captureOp_effect {s : State} (h : s.Inv3) (hr : s.rst = false) :
    ∃ c x, s.captureOp = .ok c ∧ c ≠ .resetCapture ∧ c ≠ .resetConsumer ∧
      effectOf c s = .ok { after := s.captureAfter, cause := x } := by
  rw [captureOp_eq, hr]
  unfold State.captureAfter
  cases s.riseEdge
  · cases s.fallEdge
    · cases s.ovf
      · exact ⟨.count, .none, rfl, by decide, by decide, rfl⟩
      · cases hp : s.pend
        · by_cases hi : s.inact = s.params.timeout
          · exact ⟨.ptick, .inactivityTimeout, rfl, by decide, by decide,
              by simp [effectOf, ptickEffect, hp, hi, State.aborted]⟩
          · exact ⟨.ptick, .none, rfl, by decide, by decide,
              by simp [effectOf, ptickEffect, hp, hi, quiet]⟩
        · exact ⟨.ptick, .none, rfl, by decide, by decide, by simp [effectOf, ptickEffect, hp, quiet]⟩
    · cases s.capt
      · exact ⟨.fallIdle, .none, rfl, by decide, by decide, rfl⟩
      · cases hs : s.symbol
        · exact ⟨.fallBit, .none, rfl, by decide, by decide,
            by simp [effectOf, fallBitEffect, hs, storeSymbol_eq h]⟩
        · exact ⟨.fallBit, .none, rfl, by decide, by decide,
            by simp [effectOf, fallBitEffect, hs, storeSymbol_eq h]⟩
        · exact ⟨.fallBit, .malformedBitTiming, rfl, by decide, by decide,
            by simp [effectOf, fallBitEffect, hs, State.aborted]⟩
  · cases s.capt
    · exact ⟨.start, .none, rfl, by decide, by decide, by simp [effectOf, startEffect_eq]⟩
    · exact ⟨.rise, .none, rfl, by decide, by decide, rfl⟩

/-- A cycle without reset from a ready state. -/
theorem step_of_ready {s : State} (h : s.Ready) (hr : s.rst = false) : step s = .next s.cycleAfter := by
  obtain ⟨c, x, hc, h1, h2, he⟩ := captureOp_effect h.2.2.2.2.1 hr
  unfold step
  rw [hc, consumerOp_eq, hr]
  simp only [exec_eq_conclude s h1 h2, refusal_of_ready h, he, conclude_none_ok]
  cases hp : s.pend
  · simp only [Bool.false_eq_true, if_false, exec_eq_conclude s (i := .cidle) (by decide) (by decide),
      refusal_of_ready h, effectOf, cidleEffect, quiet, conclude_none_ok, joinAgents]
    have hd : s.captureAfter.data = s.data := by
      unfold State.captureAfter advanceCapture
      repeat' split
      all_goals rfl
    simp [mergeWrites, State.cycleAfter, State.endCycle, hp, hd]
  · obtain ⟨y, hy⟩ := analyzeEffect_after s
    simp only [Bool.false_eq_true, if_false, if_true,
      exec_eq_conclude s (i := .analyze) (by decide) (by decide), refusal_of_ready h, effectOf, hy,
      conclude_none_ok, joinAgents]
    simp [mergeWrites, State.cycleAfter, hp]

/-- A reset cycle, from any state of a circuit that exists. -/
theorem step_of_reset {s : State} (h : s.params.legal = true) (hr : s.rst = true) :
    step s = .next s.resetAfter := by
  unfold step
  rw [captureOp_eq, consumerOp_eq, hr]
  simp only [if_true, exec, execResetCapture, execResetConsumer, (resetRefusal_eq_none_iff s).2 h,
    resetEffect_eq, conclude_none_ok, joinAgents]
  rfl

/-- A cycle in which nothing but RESET has a meaning, and no RESET runs, is refused. -/
theorem step_of_refusal {s : State} {r : Refusal} (hr : s.rst = false) (h : s.refusal = some r) :
    step s = .refused r := by
  have : ∃ c, s.captureOp = .ok c ∧ c ≠ .resetCapture ∧ c ≠ .resetConsumer := by
    refine ⟨_, captureOp_eq s, ?_⟩
    rw [hr]
    cases s.riseEdge <;> cases s.fallEdge <;> cases s.capt <;> cases s.ovf <;> simp
  obtain ⟨c, hc, h1, h2⟩ := this
  unfold step
  rw [hc, consumerOp_eq]
  simp only [exec_eq_conclude s h1 h2, h, conclude_some, joinAgents]

/-- Everything a step can do, from any state. -/
theorem step_cases (s : State) :
    (s.params.legal = false ∧
      step s = .refused (.illegalConfiguration s.params.failedChecks)) ∨
    (s.params.legal = true ∧ s.rst = true ∧ step s = .next s.resetAfter) ∨
    (s.params.legal = true ∧ s.rst = false ∧ s.hasReset = false ∧
      step s = .refused .beforeFirstReset) ∨
    (s.params.legal = true ∧ s.rst = false ∧ s.hasReset = true ∧ ¬ s.Inv ∧
      step s = .refused .unreachableState) ∨
    (s.Ready ∧ s.rst = false ∧ step s = .next s.cycleAfter) := by
  cases hl : s.params.legal
  · refine .inl ⟨rfl, ?_⟩
    cases hr : s.rst
    · exact step_of_refusal hr (by simp [State.refusal, hl])
    · unfold step
      rw [captureOp_eq, consumerOp_eq, hr]
      simp [exec, execResetCapture, State.resetRefusal, hl, joinAgents]
  · cases hr : s.rst
    · cases hh : s.hasReset
      · exact .inr (.inr (.inl ⟨rfl, rfl, rfl, step_of_refusal hr (by simp [State.refusal, hl, hh])⟩))
      · by_cases hi : s.Inv
        · exact .inr (.inr (.inr (.inr ⟨⟨hl, hh, hi⟩, rfl, step_of_ready ⟨hl, hh, hi⟩ hr⟩)))
        · exact .inr (.inr (.inr (.inl ⟨rfl, rfl, rfl, hi,
            step_of_refusal hr (by rw [State.refusal, if_neg (by simp [hl]), if_neg (by simp [hh]),
              if_neg hi])⟩)))
    · exact .inr (.inl ⟨rfl, rfl, step_of_reset hl hr⟩)

end Sys2Proof.Machine
end

