-- ==== Sys2Proof/Laws/PerInstr.lean ====
section
/-! SUPPORT. Statements made of every operation, one lemma for each constructor of Instr. -/

namespace Sys2Proof.Laws

/-- Every word of an operation, whatever its ignored bits, is a control word that can be formed (R92). -/
def EncodesWellFormed.Statement (i : Instr) : Prop :=
  ∀ x : CaptureWord, (encodeWith x i).wellFormed = true

theorem EncodesWellFormed.resetCapture : EncodesWellFormed.Statement .resetCapture := by
  unfold EncodesWellFormed.Statement; decide

theorem EncodesWellFormed.count : EncodesWellFormed.Statement .count := by
  unfold EncodesWellFormed.Statement; decide

theorem EncodesWellFormed.ptick : EncodesWellFormed.Statement .ptick := by
  unfold EncodesWellFormed.Statement; decide

theorem EncodesWellFormed.start : EncodesWellFormed.Statement .start := by
  unfold EncodesWellFormed.Statement; decide

theorem EncodesWellFormed.rise : EncodesWellFormed.Statement .rise := by
  unfold EncodesWellFormed.Statement; decide

theorem EncodesWellFormed.fallIdle : EncodesWellFormed.Statement .fallIdle := by
  unfold EncodesWellFormed.Statement; decide

theorem EncodesWellFormed.fallBit : EncodesWellFormed.Statement .fallBit := by
  unfold EncodesWellFormed.Statement; decide

theorem EncodesWellFormed.resetConsumer : EncodesWellFormed.Statement .resetConsumer := by
  unfold EncodesWellFormed.Statement; decide

theorem EncodesWellFormed.cidle : EncodesWellFormed.Statement .cidle := by
  unfold EncodesWellFormed.Statement; decide

theorem EncodesWellFormed.analyze : EncodesWellFormed.Statement .analyze := by
  unfold EncodesWellFormed.Statement; decide

end Sys2Proof.Laws
end

