-- ==== Sys2Proof/Laws/Runs.lean ====
section
/-! SUPPORT. Runs, and a line held at one level: what the statements about several cycles step by. -/

namespace Sys2Proof.Machine

/-- What no capture operation writes, and DINQ, which every one takes from DIN (R120). -/
theorem captureAfter_keeps (s : State) :
    s.captureAfter.params = s.params ∧ s.captureAfter.hasReset = s.hasReset ∧
    s.captureAfter.stimulus = s.stimulus ∧ s.captureAfter.cycle = s.cycle ∧
    s.captureAfter.dinq = s.din := by
  unfold State.captureAfter advanceCapture
  repeat' split
  all_goals exact ⟨rfl, rfl, rfl, rfl, rfl⟩

/-- The first cycle of a held line: no reset, and no edge. -/
theorem pins_of_holds {s : State} {n : Nat} (h : s.Holds (n + 1)) :
    s.rst = false ∧ s.din = s.dinq ∧
      s.stimulus = { rst := false, din := s.dinq } :: s.stimulus.tail := by
  unfold State.Holds at h
  cases hs : s.stimulus with
  | nil => simp [hs, List.replicate_succ] at h
  | cons p q =>
    rw [hs, List.take_succ_cons, List.replicate_succ] at h
    obtain rfl := (List.cons.inj h).1
    exact ⟨by simp [State.rst, State.pins, hs], by simp [State.din, State.pins, hs], rfl⟩

/-- After one cycle the line is held at the same level for one cycle less. -/
theorem holds_cycleAfter {s : State} {n : Nat} (h : s.Holds (n + 1)) :
    s.cycleAfter.Holds n ∧ s.cycleAfter.dinq = s.dinq := by
  obtain ⟨-, hd, hq⟩ := pins_of_holds h
  have k := captureAfter_keeps s
  have e : s.cycleAfter.dinq = s.dinq := k.2.2.2.2.trans hd
  refine ⟨?_, e⟩
  unfold State.Holds at h ⊢
  rw [show s.cycleAfter.stimulus = s.stimulus.tail from congrArg List.tail k.2.2.1, e]
  rw [hq, List.take_succ_cons, List.replicate_succ] at h
  exact (List.cons.inj h).2

/-- From a ready state a run without reset in its first cycle goes on from `cycleAfter`. -/
theorem runs_succ_iff {s t : State} {n : Nat} (h : s.Ready) (hr : s.rst = false) :
    Runs (n + 1) s t ↔ Runs n s.cycleAfter t := by
  unfold Runs
  rw [run_succ_of_step (step_of_ready h hr)]

/-- A run and one more step. -/
theorem runs_snoc : ∀ (n : Nat) {s t u : State}, Runs n s t → step t = .next u → Runs (n + 1) s u
  | 0, s, t, u, h, hs => by
    obtain rfl : s = t := Host.Outcome.next.inj h
    exact run_succ_of_step hs 0
  | n + 1, s, t, u, h, hs => by
    cases e : step s with
    | next v => exact (run_succ_of_step e _).trans (runs_snoc n ((run_succ_of_step e n).symm.trans h) hs)
    | fault f =>
      have : Sys2Proof.core.step s = .fault f := e
      simp [Runs, Host.Core.run, this] at h
    | refused r =>
      have : Sys2Proof.core.step s = .refused r := e
      simp [Runs, Host.Core.run, this] at h

end Sys2Proof.Machine
end

