-- ==== Sys2Proof/Tests/Slice0.lean ====
section
/-! SUPPORT. The model's own tests: the encodings written out from R89, one step on a small state for the
vectors of 95_test_vectors.md (named in each comment), an ill-formed term for each check, and for each
statement with hypotheses a state and operands that meet them together. -/

namespace Sys2Proof.Tests

open Sys2Proof Sys2Proof.Machine

/-! ### Small states -/

/-- The reset state of configuration REF with DINQ = 0. -/
def base : State :=
  { params := Config.reference, hasReset := true, dinq := false, tcnt := 0, lowd := 0, capt := false,
    fidx := 0, bidx := 0, fset := 0, inact := 0, pend := false, valid := false, data := 0,
    chg := false, stimulus := [], cycle := 0 }

/-- Idle with DINQ = q, the next sample of DIN = d, TCNT = t. -/
def idle (q d : Bool) (t : Nat) : State :=
  { base with dinq := q, tcnt := t, stimulus := [{ rst := false, din := d }] }

/-- Capturing(f, b) with DINQ = q, the next sample of DIN = d, TCNT = t, LOWD = l, and frames w0, w1, w2. -/
def capturing (q d : Bool) (t l : Nat) (f : BitVec 2) (b : BitVec 4) (w0 w1 w2 : FrameWord) : State :=
  { idle q d t with lowd := l, capt := true, fidx := f, bidx := b, fset := (w2 ++ w1) ++ w0 }

/-- PEND = 1 with frames w0, w1, w2 and the latch v, d. -/
def pending (w0 w1 w2 : FrameWord) (d : Nibble) (v : Bool) : State :=
  { idle false false 1 with pend := true, fset := (w2 ++ w1) ++ w0, data := d, valid := v }

/-- A reset cycle with DIN = d in a state that breaks the invariants (vector X1). -/
def resetting (d : Bool) : State :=
  { base with
    tcnt := 99, capt := true, fidx := 2, bidx := 7, fset := ((3 : FrameWord) ++ (2 : FrameWord)) ++ (1 : FrameWord),
    inact := 2,
    valid := true, data := 9, chg := true, lowd := 5, stimulus := [{ rst := true, din := d }] }

/-- The smallest counter: P_TW = 2, P_TIMEOUT = 0. -/
def tiny : Params :=
  { addr := 0, tw := 2, timeout := 0,
    windows := .direct { shortMin := 0, shortMax := 1, longMin := 2, longMax := 3 } }

/-- Right after an edge to DINQ = q in `tiny`, the line then held for three cycles. -/
def held (q : Bool) : State :=
  { base with
    params := tiny, dinq := q, tcnt := 1, stimulus := List.replicate 3 { rst := false, din := q } }

/-- Overlapping windows, configuration OVL. -/
def ovl : Params :=
  { Config.reference with
    windows := .direct { shortMin := 8, shortMax := 16, longMin := 14, longMax := 24 } }

/-- The state of an outcome, if it is a next state. -/
def got : Host.Outcome State Fault Refusal → Option State
  | .next t => some t
  | .fault _ => none
  | .refused _ => none

/-- The refusal of an outcome, if it is one. -/
def why : Host.Outcome State Fault Refusal → Option Refusal
  | .next _ => none
  | .fault _ => none
  | .refused r => some r

/-- The same state with these levels of DIN laid down, without reset. -/
def feed (s : State) (ds : List Bool) : State :=
  { s with stimulus := ds.map (fun d => { rst := false, din := d }) }

/-- The state after a step, `base` where it stops. -/
def after (s : State) : State := (got (step s)).getD base

/-- The state n steps on, `base` after a stop. -/
def ahead : Nat → State → State
  | 0, s => s
  | n + 1, s => ahead n (after s)

/-- The state after an operation, `base` where it stops. -/
def afterOp (i : Instr) (s : State) : State := (got (exec i s)).getD base

theorem eq_next_of_got {o : Host.Outcome State Fault Refusal} {t : State} (h : got o = some t) :
    o = .next t := by
  cases o <;> simp_all [got]

/-! ### Decoding: the words of R89 written out bit by bit -/

theorem test_decode_reset_capture :
    decodeCapture 0b10000 = .ok .resetCapture ∧ decodeCapture 0b10110 = .ok .resetCapture := by decide
theorem test_decode_count :
    decodeCapture 0b00000 = .ok .count ∧ decodeCapture 0b01000 = .ok .count := by decide
theorem test_decode_ptick :
    decodeCapture 0b00001 = .ok .ptick ∧ decodeCapture 0b01001 = .ok .ptick := by decide
theorem test_decode_start :
    decodeCapture 0b00100 = .ok .start ∧ decodeCapture 0b00101 = .ok .start := by decide
theorem test_decode_rise :
    decodeCapture 0b01100 = .ok .rise ∧ decodeCapture 0b01101 = .ok .rise := by decide
theorem test_decode_fallIdle :
    decodeCapture 0b00010 = .ok .fallIdle ∧ decodeCapture 0b00011 = .ok .fallIdle := by decide
theorem test_decode_fallBit :
    decodeCapture 0b01010 = .ok .fallBit ∧ decodeCapture 0b01011 = .ok .fallBit := by decide
theorem test_decode_reset_consumer :
    decodeConsumer 0b10 = .ok .resetConsumer ∧ decodeConsumer 0b11 = .ok .resetConsumer := by decide
theorem test_decode_cidle : decodeConsumer 0b00 = .ok .cidle := by decide
theorem test_decode_analyze : decodeConsumer 0b01 = .ok .analyze := by decide
theorem test_decode_refuses_both_edges :
    decodeCapture 0b00110 = .error (.noOperation (.capture 0b00110)) ∧
    decodeCapture 0b01111 = .error (.noOperation (.capture 0b01111)) := by decide
theorem test_decode_number_refused :
    decodeCaptureNumber 32 = .error (.notAControlWord 5 32) ∧
    decodeConsumerNumber 4 = .error (.notAControlWord 2 4) := by decide
theorem test_table_word :
    decodeTableWord 5 0b01010 = some .fallBit ∧ decodeTableWord 2 0b01 = some .analyze ∧
    decodeTableWord 8 0b00110 = none := by decide

/-! ### Each row's word runs as the first operation after reset -/

theorem test_fetch_capture_words :
    ∀ w ∈ [0b10000, 0b00000, 0b00001, 0b00100, 0b01100, 0b00010, 0b01010],
      (State.reset.withFetchWord 5 w).captureWord = BitVec.ofNat 5 w ∧
      (got (step (State.reset.withFetchWord 5 w))).isSome = true := by decide
theorem test_fetch_consumer_words :
    ∀ w ∈ [0b10, 0b00, 0b01],
      (State.reset.withFetchWord 2 w).consumerWord = BitVec.ofNat 2 w ∧
      (got (step (State.reset.withFetchWord 2 w))).isSome = true := by decide

/-! ### Well-formedness: an ill-formed term for each check, refused (vectors W1 to W10) -/

theorem test_word_with_both_edges_ill_formed :
    (ControlWord.capture 0b01110).wellFormed = false ∧
    (ControlWord.capture 0b11110).wellFormed = true := by decide
theorem test_program_without_reset_ill_formed :
    programWellFormed [.low 3] = false ∧ programWellFormed [.rst 0, .low 3] = false ∧
    programWellFormed [.rst 2, .low 3] = true := by decide
theorem test_reference_well_formed :
    Config.reference.wellFormed = true ∧
    Config.reference.bounds =
      { shortMin := 8, shortMax := 12, longMin := 16, longMax := 24 } := by decide
theorem test_short_order_refused :
    { Config.reference with windows := .derived 30000 3000 5 }.failedChecks = [.shortOrder] := by decide
theorem test_long_order_refused :
    { Config.reference with windows := .derived 2500 3000 20 }.failedChecks =
      [.shortOrder, .longOrder] := by decide
theorem test_f_osc_refused :
    { Config.reference with windows := .derived 30000 2000 20 }.failedChecks = [.fOscRange] := by decide
theorem test_tol_refused :
    { Config.reference with windows := .derived 30000 3000 101 }.failedChecks = [.tolRange] := by decide
theorem test_window_range_refused :
    { Config.reference with tw := 4 }.failedChecks = [.windowRange] := by decide
theorem test_tw_min_refused :
    { tiny with tw := 1, windows := .direct ⟨0, 1, 0, 1⟩ }.failedChecks = [.twMin] := by decide
theorem test_addr_refused : { Config.reference with addr := 0x100 }.failedChecks = [.addrRange] := by
  decide
theorem test_f_tick_refused :
    Check.fTickPos ∈ { Config.reference with windows := .derived 0 3000 20 }.failedChecks := by decide
/-- Vectors W2 and W4: the long length comes from the truncated short one. -/
theorem test_derived_windows :
    derivedBounds 100000 3000 10 = { shortMin := 30, shortMax := 36, longMin := 60, longMax := 72 } ∧
    derivedBounds 31500 3000 20 = { shortMin := 8, shortMax := 12, longMin := 16, longMax := 24 } := by
  decide

/-! ### The classifier (vectors K) -/

/-- K1, K3, K5, K7, K8, K17. -/
theorem test_classify_boundaries :
    classify Config.reference 16 8 false = .one ∧ classify Config.reference 16 13 false = .invalid ∧
    classify Config.reference 25 12 false = .invalid ∧ classify Config.reference 12 24 false = .zero ∧
    classify Config.reference 7 16 false = .invalid ∧
    classify Config.reference 20 0 false = .invalid := by decide
/-- K13 to K15 and, with overlapping windows, K20 to K23. -/
theorem test_classify_header_and_overlap :
    classify Config.reference 0 10 true = .one ∧ classify Config.reference 255 20 true = .zero ∧
    classify Config.reference 0 14 true = .invalid ∧ classify ovl 10 15 false = .invalid ∧
    classify ovl 20 15 false = .one ∧ classify ovl 10 20 false = .zero ∧
    classify ovl 15 15 false = .one := by decide

/-! ### One step each (vectors T, A, V, X) -/

/-- T1. -/
theorem test_count : got (step (idle true true 7)) =
    some { base with dinq := true, tcnt := 8, cycle := 1 } := by decide
/-- T2. -/
theorem test_ptick_counts : (got (step { idle false false 255 with inact := 2 })).map
    (fun t => (t.tcnt, t.inact, t.valid)) = some (0, 3, false) := by decide
/-- T8: the timeout while Capturing keeps DATA and LOWD. -/
theorem test_ptick_times_out :
    got (step { capturing false false 255 20 1 5 0x1FF5 0x1F00 0 with
      inact := 3, valid := true, data := 5 }) =
    some { base with tcnt := 0, lowd := 20, data := 5, cycle := 1 } := by decide
/-- T5. -/
theorem test_rise : (got (step (capturing false true 20 0 0 3 0 0 0))).map
    (fun t => (t.lowd, t.tcnt, t.dinq, t.bidx)) = some (20, 1, true, 3) := by decide
/-- T7: the edge wins over the overflow. -/
theorem test_rise_at_overflow :
    (got (step { capturing false true 255 0 0 2 0 0 0 with inact := 1 })).map
    (fun t => (t.lowd, t.tcnt, t.inact)) = some (255, 1, 1) := by decide
/-- T6. -/
theorem test_fallIdle : got (step (idle true false 40)) =
    some { base with tcnt := 1, cycle := 1 } := by decide
/-- A1. -/
theorem test_start : got (step { idle false true 30 with inact := 2 }) =
    some { base with dinq := true, tcnt := 1, lowd := 30, capt := true, cycle := 1 } := by decide
/-- A4: a One at bit 9. -/
theorem test_fallBit_stores :
    (got (step { capturing true false 10 20 0 3 0x1C00 0 0 with inact := 2 })).map
    (fun t => (frameWord t.fset 0, t.bidx, t.inact, t.tcnt)) = some (0x1E00, 4, 0, 1) := by decide
/-- A7: short high after short low. -/
theorem test_fallBit_aborts :
    got (step { capturing true false 10 10 1 5 0x1FF5 0x1F00 0 with valid := true, data := 5 }) =
    some { base with tcnt := 1, lowd := 10, data := 5, cycle := 1 } := by decide
/-- A5 and A6: the last symbol of frame 0 and of frame 2. -/
theorem test_frame_and_set_complete :
    (got (step (capturing true false 10 20 0 12 0x1FF4 0 0))).map
      (fun t => (frameWord t.fset 0, t.capt, t.fidx, t.bidx)) = some (0x1FF5, true, 1, 0) ∧
    (got (step (capturing true false 10 20 2 12 0x1FF5 0x1FF5 0x1FF4))).map
      (fun t => (frameWord t.fset 2, t.capt, t.fidx, t.bidx, t.pend)) =
      some (0x1FF5, false, 0, 0, true) := by decide
/-- V4: the data nibble is frame 2's. -/
theorem test_analyze_latches :
    (got (step (pending 0x1FF3 0x1FF3 0x1FF9 5 true))).map
    (fun t => (t.ports, t.fset, t.pend)) =
      some ({ vt := true, dout := 9, chg := true }, 0, false) := by decide
/-- V7: frame 2 carries another address. -/
theorem test_analyze_rejects :
    (got (step (pending 0x1FF5 0x1FF5 0x0015 5 true))).map
    (fun t => (t.ports, t.fset, t.pend)) =
      some ({ vt := false, dout := 5, chg := false }, 0, false) := by decide
/-- V9: START in the cycle of the analysis. -/
theorem test_start_during_analyze :
    (got (step { pending 0x1FF5 0x1FF5 0x1FF5 0 false with
      stimulus := [{ rst := false, din := true }] })).map
    (fun t => (t.ports, t.fset, t.pend, t.capt, t.lowd, t.tcnt)) =
      some ({ vt := true, dout := 5, chg := true }, 0, false, true, 1, 1) := by decide
/-- T4: the suppressed tick in the cycle of an analysis. -/
theorem test_suppressed_tick :
    (got (step { pending 0x1FF5 0x1FF5 0x1FF5 0 false with tcnt := 255, inact := 2 })).map
    (fun t => (t.tcnt, t.inact, t.ports.dout, t.pend)) = some (0, 2, 5, false) := by decide
/-- V11. -/
theorem test_cidle : (got (step { idle false false 3 with chg := true, data := 5, valid := true })).map
    State.ports = some { vt := true, dout := 5, chg := false } := by decide
/-- X1: RESET from a state outside the invariants. -/
theorem test_reset : got (step (resetting true)) = some { base with dinq := true, cycle := 1 } := by
  decide
/-- The cause labels of A7, T8, V7 and V4. -/
theorem test_labels :
    ((capturing true false 10 10 1 5 0x1FF5 0x1F00 0).label.map Label.cause) =
      some .malformedBitTiming ∧
    ({ idle false false 255 with inact := 3 }.label.map Label.cause) = some .inactivityTimeout ∧
    ((pending 0x1FF5 0x1FF5 0x0015 5 true).label.map Label.cause) = some .addressMismatch ∧
    ((pending 0x1FF3 0x1FF3 0x1FF9 5 true).label) =
      some { capture := .count, consumer := .analyze, cause := .none } := by decide
/-- R242, R93, R246: the three refusals. -/
theorem test_refusals :
    why (step { idle true true 7 with hasReset := false }) = some .beforeFirstReset ∧
    why (step { idle true true 7 with inact := 4 }) = some .unreachableState ∧
    why (step { resetting true with params := { tiny with addr := 256 } }) =
      some (.illegalConfiguration [.addrRange]) := by decide
/-- R96 to R98: the line sends the header, then each field, most significant bit first. -/
theorem test_frame_items :
    expand 10 (.frame 30 true 0x80 0x1) =
      [.low 30, .high 10, .low 20, .high 10] ++
      (List.replicate 10 [.low 10, .high 20]).flatten ++ [.low 20, .high 10] ∧
    packFrame true 0xFF 0x5 = 0x1FF5 := by decide

/-! ### Witnesses: for each statement with hypotheses, values that meet them

The name of each says whose hypotheses it meets. A next state is named as `after s` (or `afterOp i s`). -/

theorem steps_after {s : State} (h : (got (step s)).isSome = true) : step s = .next (after s) :=
  eq_next_of_got (by unfold after; cases h' : got (step s) <;> simp_all)

theorem exec_afterOp {i : Instr} {s : State} (h : (got (exec i s)).isSome = true) :
    exec i s = .next (afterOp i s) :=
  eq_next_of_got (by unfold afterOp; cases h' : got (exec i s) <;> simp_all)

theorem runs_ahead : ∀ (n : Nat) (s : State),
    (∀ k, k < n → (got (step (ahead k s))).isSome = true) → Runs n s (ahead n s)
  | 0, _, _ => rfl
  | n + 1, s, h =>
    (run_succ_of_step (steps_after (h 0 (Nat.succ_pos n))) n).trans
      (runs_ahead n (after s) (fun k hk => h (k + 1) (Nat.succ_lt_succ hk)))

/-- A set pending with an empty capture, then further samples; frames of address 0xFF. -/
def full : State := feed (pending 0x1FF5 0x1FF5 0x1FF5 0 false) [false, false]

/-- The falling edge that completes a set, and the analysis after it. -/
def completing : State := feed (capturing true false 10 20 2 12 0x1FF5 0x1FF5 0x1FF4) [false, false]

/-- An abort and the rising edge after it. -/
def aborting : State := feed (capturing true false 10 10 1 5 0x1FF5 0x1F00 0) [false, true]

theorem witness_StepRunsTheDecodedOperations_analyze :
    decodeCapture full.captureWord = .ok .count ∧ decodeConsumer full.consumerWord = .ok .analyze ∧
    exec .count full = .next (afterOp .count full) ∧
    exec .analyze full = .next (afterOp .analyze full) :=
  ⟨by decide, by decide, exec_afterOp (by decide), exec_afterOp (by decide)⟩
theorem witness_StepRunsTheDecodedOperations_cidle :
    decodeCapture aborting.captureWord = .ok .fallBit ∧
    decodeConsumer aborting.consumerWord = .ok .cidle ∧
    exec .fallBit aborting = .next (afterOp .fallBit aborting) ∧
    exec .cidle aborting = .next (afterOp .cidle aborting) :=
  ⟨by decide, by decide, exec_afterOp (by decide), exec_afterOp (by decide)⟩
theorem witness_StepRunsTheDecodedOperations_reset :
    decodeCapture (resetting true).captureWord = .ok .resetCapture ∧
    decodeConsumer (resetting true).consumerWord = .ok .resetConsumer ∧
    exec .resetCapture (resetting true) = .next (afterOp .resetCapture (resetting true)) ∧
    exec .resetConsumer (resetting true) = .next (afterOp .resetConsumer (resetting true)) :=
  ⟨by decide, by decide, exec_afterOp (by decide), exec_afterOp (by decide)⟩
theorem witness_StepRunsTheDecodedOperations_refused :
    decodeCapture { full with hasReset := false }.captureWord = .ok .count ∧
    decodeConsumer { full with hasReset := false }.consumerWord = .ok .analyze ∧
    exec .count { full with hasReset := false } = .refused .beforeFirstReset := by
  refine ⟨by decide, by decide, ?_⟩
  simp [exec, execCount, conclude, State.refusal, full, feed, pending, idle, base,
    show Config.reference.legal = true by decide]
theorem witness_DecodeAndEncodeAgree :
    decode (.capture 0b11011) = .ok .resetCapture ∧ decode (.consumer 0b11) = .ok .resetConsumer ∧
    decode (.capture 0b01001) = .ok .ptick ∧ (ControlWord.capture 0b01001).wellFormed = true := by
  and_intros <;> decide
theorem witness_EveryReadyStateStepsToAReadyState :
    full.Ready ∧ completing.Ready ∧ aborting.Ready := by and_intros <;> decide
/-- A state that breaks the invariants, and the state a reset cycle takes it to. -/
theorem witness_EveryNextStateIsReady :
    ¬ (resetting true).Ready ∧ step (resetting true) = .next (after (resetting true)) :=
  ⟨by decide, steps_after (by decide)⟩
theorem witness_PendingAnalysisMeetsNoPeriodicTick :
    step completing = .next (after completing) ∧ (after completing).pend = true ∧
    full.Ready ∧ full.PendFresh ∧ full.pend = true :=
  ⟨steps_after (by decide), by decide⟩
theorem witness_PendLastsOneCycle : full.Ready ∧ full.pend = true := by and_intros <;> decide
theorem witness_RefusalsOfACycleWithoutReset :
    ({ full with params := { tiny with addr := 256 } }.rst = false ∧
      { full with params := { tiny with addr := 256 } }.params.legal = false) ∧
    (full.rst = false ∧ full.params.legal = true ∧ { full with hasReset := false }.hasReset = false) ∧
    (full.hasReset = true ∧ ¬ { full with fidx := 3 }.Inv ∧ ¬ { full with bidx := 13 }.Inv ∧
      ¬ { full with inact := 4 }.Inv ∧ ¬ { full with tcnt := 256 }.Inv) := by and_intros <;> decide
theorem witness_WindowLegality :
    Config.reference.legal = true ∧ Config.reference.windows = .derived 30000 3000 20 ∧
    ovl.legal = true ∧ tiny.legal = true ∧
    tiny.windows = .direct { shortMin := 0, shortMax := 1, longMin := 2, longMax := 3 } ∧
    tiny.addr ≤ 255 ∧ 2 ≤ tiny.tw ∧ 3 ≤ tiny.tmax ∧
    { Config.reference with windows := .derived 30000 2000 20 }.legal = false ∧
    { resetting true with params := { tiny with addr := 256 } }.params.legal = false := by
  and_intros <;> decide
theorem witness_ConfigurationNeverChanges :
    exec .fallBit aborting = .next (afterOp .fallBit aborting) ∧
    step aborting = .next (after aborting) :=
  ⟨exec_afterOp (by decide), steps_after (by decide)⟩
theorem witness_DerivedWindows :
    Config.reference.windows = .derived 30000 3000 20 ∧ 20 ≤ 100 ∧
    (derivedBounds 30000 3000 100).shortMin = 0 ∧ (derivedBounds 30000 3000 0).shortMin = 10 := by
  and_intros <;> decide
theorem witness_InactivityWidthIsLeast :
    Config.reference.iw = 2 ∧ 1 ≤ 2 ∧ Config.reference.timeout < 2 ^ 2 ∧ tiny.iw = 1 ∧
    tiny.timeout < 2 ^ 1 ∧ full.Ready := by and_intros <;> decide
/-- A whole frame, the last bit, a run that crosses a frame, and an address past the end. -/
theorem witness_FsetReadAfterWrite :
    (0 % 13 + 13 ≤ 13 ∧ 0 < 39) ∧ (38 % 13 + 1 ≤ 13 ∧ 38 < 39) ∧ ¬ (12 % 13 + 2 ≤ 13 ∧ 12 < 39) ∧
    ¬ (39 % 13 + 1 ≤ 13 ∧ 39 < 39) := by and_intros <;> decide
theorem witness_FrameWordFields :
    ∀ k : Fin 3, (memWrite full.fset (13 * k.val) 13 (packFrame true 0x80 0x1)).toBool = true := by
  decide
theorem witness_ClassifierIsSymmetricWhenDisjoint :
    Config.reference.bounds.shortMax < Config.reference.bounds.longMin ∧
    (⟨16, 24, 8, 12⟩ : Bounds).longMax < (⟨16, 24, 8, 12⟩ : Bounds).shortMin ∧
    (classify Config.reference 16 12 false, classify Config.reference 12 16 false,
      classify Config.reference 16 16 false) = (.one, .zero, .invalid) := by and_intros <;> decide
/-- A high phase in both windows, at both ends of the overlap; one in SHORT only and one in LONG only, with
every result; adjacent windows. -/
theorem witness_OverlappingWindowsTryOneOnly :
    (ovl.inS 14 = true ∧ ovl.inL 14 = true) ∧ (ovl.inS 16 = true ∧ ovl.inL 16 = true) ∧
    ¬ (ovl.inS 13 = true ∧ ovl.inL 13 = true) ∧ ¬ (ovl.inS 17 = true ∧ ovl.inL 17 = true) ∧
    (classify ovl 24 13 false, classify ovl 13 13 false, classify ovl 8 17 false,
      classify ovl 17 17 false) = (.one, .invalid, .zero, .invalid) ∧
    tiny.bounds.shortMax + 1 = tiny.bounds.longMin := by
  and_intros <;> decide
theorem witness_HeaderIsDecidedByItsHighPhase :
    (capturing true false 12 0 0 0 0 0 0).bidx = 0 ∧
    (capturing true false 12 0 0 0 0 0 0).symbol = .one ∧
    (capturing true false 24 255 1 0 0 0 0).symbol = .zero ∧
    (capturing true false 13 20 2 0 0 0 0).symbol = .invalid := by and_intros <;> decide
theorem witness_WindowsAreInclusive :
    Config.reference.legal = true ∧ 0 < Config.reference.bounds.shortMin ∧
    0 < Config.reference.bounds.longMin ∧ tiny.legal = true ∧ tiny.bounds.shortMin = 0 := by
  and_intros <;> decide
theorem witness_TimerPrologueInEveryCycle :
    (idle true true 255).Ready ∧ (idle true true 255).rst = false ∧
    (capturing false true 20 0 0 3 0 0 0).Ready ∧ (capturing false true 20 0 0 3 0 0 0).rst = false ∧
    aborting.Ready ∧ aborting.rst = false := by and_intros <;> decide
theorem witness_CountAddsOneTick :
    ((idle true true 254).Ready ∧ (idle true true 254).dinq = (idle true true 254).din ∧
      (idle true true 254).tcnt < (idle true true 254).params.tmax) ∧
    ((capturing false false 0 0 1 3 0 0 0).Ready ∧
      (capturing false false 0 0 1 3 0 0 0).dinq = (capturing false false 0 0 1 3 0 0 0).din) := by
  and_intros <;> decide
/-- The three cases: pending, the bound, one below it. -/
theorem witness_PtickCountsOrTimesOut :
    { full with tcnt := 255 }.Ready ∧ { full with tcnt := 255 }.dinq = { full with tcnt := 255 }.din ∧
    { full with tcnt := 255 }.tcnt = Config.reference.tmax ∧ full.pend = true ∧
    { idle false false 255 with inact := 3 }.Ready ∧ (idle false false 255).pend = false ∧
    (idle false false 255).dinq = (idle false false 255).din ∧
    { capturing true true 255 0 0 3 0 0 0 with inact := 2 }.Ready ∧
    (capturing true true 255 0 0 3 0 0 0).dinq = (capturing true true 255 0 0 3 0 0 0).din := by
  and_intros <;> decide
theorem witness_RiseRecordsTheLowPhase :
    (capturing false true 255 0 0 3 0 0 0).Ready ∧ (capturing false true 255 0 0 3 0 0 0).dinq = false ∧
    (capturing false true 255 0 0 3 0 0 0).din = true := by and_intros <;> decide
theorem witness_FallIdleRestartsTheCount :
    (idle true false 255).Ready ∧ (idle true false 255).dinq = true ∧ (idle true false 255).din = false := by
  and_intros <;> decide
theorem witness_AnEdgeBeatsTheOverflow :
    (idle true false 255).Ready ∧ (idle true false 255).rst = false ∧
    (idle true false 255).dinq ≠ (idle true false 255).din ∧
    (idle true false 255).tcnt = (idle true false 255).params.tmax := by and_intros <;> decide
theorem witness_DurationMeasurement_edge :
    (feed (idle false true 30) [true, true, true]).Ready ∧
    (feed (idle false true 30) [true, true, true]).rst = false ∧
    (feed (idle false true 30) [true, true, true]).dinq ≠ (feed (idle false true 30) [true, true, true]).din ∧
    step (feed (idle false true 30) [true, true, true]) =
      .next (after (feed (idle false true 30) [true, true, true])) ∧
    (after (feed (idle false true 30) [true, true, true])).Holds 2 :=
  ⟨by decide, by decide, by decide, steps_after (by decide), by decide⟩
theorem witness_DurationMeasurement_reset :
    { resetting true with stimulus := [⟨true, true⟩, ⟨false, true⟩] }.rst = true ∧
    step { resetting true with stimulus := [⟨true, true⟩, ⟨false, true⟩] } =
      .next (after { resetting true with stimulus := [⟨true, true⟩, ⟨false, true⟩] }) ∧
    (after { resetting true with stimulus := [⟨true, true⟩, ⟨false, true⟩] }).Holds 1 :=
  ⟨by decide, steps_after (by decide), by decide⟩
/-- Idle at either level, Capturing, and right after a set was completed. -/
theorem witness_SilenceTimesOutAtItsCycle :
    ∀ s ∈ [held true, held false, { held false with capt := true, fidx := 1, bidx := 3 },
        { held false with pend := true, fset := 5 }],
      s.Ready ∧ s.tcnt = 1 ∧ s.inact = 0 ∧ s.params.tmax + s.params.timeout * 2 ^ s.params.tw = 3 ∧
      s.Holds 3 := by
  simp only [List.forall_mem_cons]
  and_intros <;> decide
theorem witness_StartOpensACapture :
    (idle false true 255).Ready ∧ (idle false true 255).capt = false ∧ (idle false true 255).dinq = false ∧
    (idle false true 255).din = true ∧ (feed full [true]).Ready ∧ (feed full [true]).capt = false ∧
    (feed full [true]).dinq = false ∧ (feed full [true]).din = true := by and_intros <;> decide
/-- The header, the last bit of a frame, and both symbol values. -/
theorem witness_FallBitStoresASymbol :
    (capturing true false 10 0 0 0 0 0 0).Ready ∧ (capturing true false 10 0 0 0 0 0 0).symbol = .one ∧
    (capturing true false 20 10 2 11 0 0 0).Ready ∧ (capturing true false 20 10 2 11 0 0 0).symbol = .zero ∧
    (capturing true false 20 10 1 12 0 0 0).Ready ∧ (capturing true false 20 10 1 12 0 0 0).symbol = .zero := by
  and_intros <;> decide
theorem witness_FrameCompleteGoesToTheNextFrame :
    (capturing true false 10 20 0 12 0x1FF4 0 0).Ready ∧
    (capturing true false 10 20 0 12 0x1FF4 0 0).symbol ≠ .invalid ∧
    (capturing true false 10 20 0 12 0x1FF4 0 0).bidx = 12 ∧
    (capturing true false 10 20 1 12 0x1FF4 0 0).Ready ∧
    (capturing true false 10 20 1 12 0x1FF4 0 0).fidx.toNat < 2 := by and_intros <;> decide
theorem witness_SetCompleteHandsOver :
    completing.Ready ∧ completing.symbol ≠ .invalid ∧ completing.bidx = 12 ∧ completing.fidx = 2 ∧
    completing.rst = false ∧ completing.dinq = true ∧ completing.din = false ∧
    (after completing).rst = false ∧ step completing = .next (after completing) :=
  ⟨by decide, by decide, by decide, by decide, by decide, by decide, by decide, by decide,
    steps_after (by decide)⟩
theorem witness_FallBitStoreFrame :
    completing.Ready ∧ completing.capt = true ∧ completing.dinq = true ∧ completing.din = false ∧
    completing.symbol ≠ .invalid := by and_intros <;> decide
theorem witness_FallBitAbortsOnInvalid :
    aborting.Ready ∧ aborting.dinq = true ∧ aborting.din = false ∧ aborting.symbol = .invalid := by
  and_intros <;> decide
theorem witness_OnlyTheseCyclesMoveTheCaptureState :
    (aborting.rst = false ∧ step aborting = .next (after aborting) ∧
      (after aborting).capt ≠ aborting.capt) ∧
    ((idle false true 3).rst = false ∧ step (idle false true 3) = .next (after (idle false true 3)) ∧
      (after (idle false true 3)).capt ≠ (idle false true 3).capt) ∧
    ({ capturing true true 255 0 0 3 0 0 0 with inact := 3 }.rst = false ∧
      step { capturing true true 255 0 0 3 0 0 0 with inact := 3 } =
        .next (after { capturing true true 255 0 0 3 0 0 0 with inact := 3 }) ∧
      (after { capturing true true 255 0 0 3 0 0 0 with inact := 3 }).bidx ≠ 3) :=
  ⟨⟨by decide, steps_after (by decide), by decide⟩, ⟨by decide, steps_after (by decide), by decide⟩,
    by decide, steps_after (by decide), by decide⟩
/-- An abort, then two more low cycles before the line rises. -/
def abortedLow : State :=
  feed (capturing true false 10 10 1 5 0x1FF5 0x1F00 0) [false, false, false, true]
/-- A timeout while the line is high, one more high cycle, a fall, one more low cycle, and a rise. -/
def timedOutHigh : State :=
  feed { capturing true true 255 0 0 3 0 0 0 with inact := 3 } [true, true, false, false, true]
theorem witness_TheEdgeAfterAnAbortIsAStart :
    abortedLow.rst = false ∧ abortedLow.Malformed ∧ step abortedLow = .next (after abortedLow) ∧
    (after abortedLow).Holds 2 ∧ Runs 2 (after abortedLow) (ahead 3 abortedLow) ∧
    (ahead 3 abortedLow).rst = false ∧ (ahead 3 abortedLow).dinq = false ∧
    (ahead 3 abortedLow).din = true :=
  ⟨by decide, by decide, steps_after (by decide), by decide,
    runs_ahead 2 (after abortedLow) (by decide), by decide, by decide, by decide⟩
theorem witness_TheEdgeAfterAnAbortIsAStart_timeout :
    timedOutHigh.rst = false ∧ timedOutHigh.TimesOut ∧
    step timedOutHigh = .next (after timedOutHigh) ∧ (after timedOutHigh).Holds 1 ∧
    (ahead 2 timedOutHigh).rst = false ∧ (ahead 2 timedOutHigh).dinq = true ∧
    (ahead 2 timedOutHigh).din = false ∧ (ahead 3 timedOutHigh).Holds 1 ∧
    (ahead 4 timedOutHigh).rst = false ∧ (ahead 4 timedOutHigh).din = true :=
  ⟨by decide, by decide, steps_after (by decide), by decide, by decide, by decide, by decide,
    by decide, by decide, by decide⟩
theorem witness_AnalyzeLatchesAUnanimousSet : full.Ready ∧ full.Unanimous := by and_intros <;> decide
/-- No frame, and two frames of three, with the address. -/
theorem witness_AnalyzeRejectsAMismatch :
    base.Ready ∧ ¬ base.Unanimous ∧ (pending 0x1FF5 0x1FF5 0x0015 5 true).Ready ∧
    ¬ (pending 0x1FF5 0x1FF5 0x0015 5 true).Unanimous := by and_intros <;> decide
theorem witness_AnalyzeConsumesTheFrameSet :
    (pending 0x1FF5 0x1FF5 0x0015 5 true).Ready ∧ (pending 0x1FF5 0x1FF5 0x0015 5 true).pend = true := by
  and_intros <;> decide
theorem witness_CidleClearsChg : { base with chg := true }.Ready := by and_intros <;> decide
/-- Two sets that differ in their headers and in the data of frames 0 and 1. -/
theorem witness_AnalysisIgnoresHeadersAndEarlyData :
    full.fset ≠ (pending 0x0FF1 0x1FF2 0x0FF5 0 true).fset ∧
    full.params = (pending 0x0FF1 0x1FF2 0x0FF5 0 true).params ∧
    full.data = (pending 0x0FF1 0x1FF2 0x0FF5 0 true).data ∧
    (∀ k, k < 3 → readBits full.fset (13 * k + 4) 8 =
      readBits (pending 0x0FF1 0x1FF2 0x0FF5 0 true).fset (13 * k + 4) 8) ∧
    full.newData = (pending 0x0FF1 0x1FF2 0x0FF5 0 true).newData ∧
    exec .analyze full = .next (afterOp .analyze full) ∧
    exec .analyze (pending 0x0FF1 0x1FF2 0x0FF5 0 true) =
      .next (afterOp .analyze (pending 0x0FF1 0x1FF2 0x0FF5 0 true)) :=
  ⟨by decide, by decide, by decide, by decide, by decide, exec_afterOp (by decide),
    exec_afterOp (by decide)⟩
theorem witness_IdenticalSetChangesNoOutput :
    (pending 0x1FF5 0x1FF5 0x1FF5 5 true).Ready ∧ (pending 0x1FF5 0x1FF5 0x1FF5 5 true).rst = false ∧
    (pending 0x1FF5 0x1FF5 0x1FF5 5 true).pend = true ∧ (pending 0x1FF5 0x1FF5 0x1FF5 5 true).Unanimous ∧
    (pending 0x1FF5 0x1FF5 0x1FF5 5 true).newData = (pending 0x1FF5 0x1FF5 0x1FF5 5 true).data ∧
    (pending 0x1FF5 0x1FF5 0x1FF5 5 true).valid = true ∧
    (pending 0x1FF5 0x1FF5 0x1FF5 5 true).chg = false := by and_intros <;> decide
theorem witness_RevalidationDoesNotRetrigger :
    (pending 0x1FF5 0x1FF5 0x1FF5 5 false).Ready ∧ (pending 0x1FF5 0x1FF5 0x1FF5 5 false).rst = false ∧
    (pending 0x1FF5 0x1FF5 0x1FF5 5 false).pend = true ∧
    (pending 0x1FF5 0x1FF5 0x1FF5 5 false).Unanimous ∧
    (pending 0x1FF5 0x1FF5 0x1FF5 5 false).newData = (pending 0x1FF5 0x1FF5 0x1FF5 5 false).data ∧
    (pending 0x1FF5 0x1FF5 0x1FF5 5 false).valid = false := by and_intros <;> decide
theorem witness_FrameSetHandoff :
    completing.Ready ∧ completing.rst = false ∧ (after completing).pend = true ∧
    (after completing).rst = false ∧ (after completing).Unanimous ∧
    step completing = .next (after completing) :=
  ⟨by decide, by decide, by decide, by decide, by decide, steps_after (by decide)⟩
theorem witness_PendIsSetBySetCompleteOnly :
    completing.Ready ∧ completing.rst = false ∧ completing.CompletesSet ∧ full.Ready ∧
    full.rst = false ∧ full.pend = true ∧ ¬ full.CompletesSet := by and_intros <;> decide
/-- An analysis, an abort, a timeout, and a cycle of none. -/
theorem witness_ValidFollowsAnalysisAbortAndTimeout :
    (full.Ready ∧ full.rst = false ∧ full.pend = true) ∧
    (aborting.Ready ∧ aborting.rst = false ∧ aborting.pend = false ∧ aborting.Malformed) ∧
    ({ idle false false 255 with inact := 3 }.Ready ∧ { idle false false 255 with inact := 3 }.TimesOut) ∧
    ((idle true true 7).Ready ∧ (idle true true 7).rst = false ∧ (idle true true 7).pend = false ∧
      ¬ (idle true true 7).Malformed ∧ ¬ (idle true true 7).TimesOut) := by and_intros <;> decide
theorem witness_DataChangesExactlyWithChg :
    full.Ready ∧ full.rst = false ∧ full.pend = true ∧ full.Unanimous ∧ full.newData ≠ full.data ∧
    completing.Ready ∧ completing.rst = false ∧ completing.pend = false := by and_intros <;> decide
theorem witness_ChgIsAOneCyclePulse :
    step full = .next (after full) ∧ (after full).chg = true ∧
    step (after full) = .next (after (after full)) ∧
    completing.Settled ∧ step completing = .next (after completing) :=
  ⟨steps_after (by decide), by decide, steps_after (by decide), by decide, steps_after (by decide)⟩
theorem witness_CrossAgentFrames :
    exec .cidle full = .next (afterOp .cidle full) ∧ exec .analyze full = .next (afterOp .analyze full) ∧
    exec .count full = .next (afterOp .count full) ∧ exec .ptick full = .next (afterOp .ptick full) ∧
    exec .start full = .next (afterOp .start full) ∧ exec .rise full = .next (afterOp .rise full) ∧
    exec .fallIdle full = .next (afterOp .fallIdle full) ∧
    exec .fallBit completing = .next (afterOp .fallBit completing) :=
  ⟨exec_afterOp (by decide), exec_afterOp (by decide), exec_afterOp (by decide), exec_afterOp (by decide),
    exec_afterOp (by decide), exec_afterOp (by decide), exec_afterOp (by decide),
    exec_afterOp (by decide)⟩
theorem witness_NonStoringOperationsKeepFset :
    exec .count completing = .next (afterOp .count completing) ∧
    exec .rise completing = .next (afterOp .rise completing) ∧
    exec .fallIdle completing = .next (afterOp .fallIdle completing) ∧
    exec .cidle completing = .next (afterOp .cidle completing) ∧
    full.pend = true ∧ exec .ptick full = .next (afterOp .ptick full) ∧
    completing.inact ≠ completing.params.timeout ∧
    exec .ptick completing = .next (afterOp .ptick completing) :=
  ⟨exec_afterOp (by decide), exec_afterOp (by decide), exec_afterOp (by decide), exec_afterOp (by decide),
    by decide, exec_afterOp (by decide), by decide, exec_afterOp (by decide)⟩
theorem witness_CausesOfTheOperations : full.Ready ∧ aborting.Ready ∧ completing.Ready := by
  and_intros <;> decide
theorem witness_ACycleHasAtMostOneCause :
    aborting.Ready ∧ decodeCapture aborting.captureWord = .ok .fallBit ∧
    decodeConsumer aborting.consumerWord = .ok .cidle := by and_intros <;> decide
theorem witness_ResetWritesEveryRegister :
    (resetting true).params.legal = true ∧ ¬ (resetting true).Inv := by and_intros <;> decide
/-- Two states that differ in every register, one of them before the first reset. -/
theorem witness_ResetCycleForgetsTheRegisters :
    resetting true ≠ { base with stimulus := (resetting true).stimulus, hasReset := false } ∧
    (resetting true).params = base.params ∧ (resetting true).params.legal = true ∧
    (resetting true).stimulus = { base with stimulus := (resetting true).stimulus }.stimulus ∧
    (resetting true).cycle = base.cycle ∧ (resetting true).rst = true := by and_intros <;> decide
/-- A reset cycle with DIN = d, then these levels, with the counter of `tiny`. -/
def booting (d : Bool) (ds : List Bool) : State :=
  { resetting d with
    params := tiny
    stimulus := { rst := true, din := d } :: ds.map (fun e => { rst := false, din := e }) }
/-- With DIN low, a rise in the first cycle and one after two low cycles. -/
theorem witness_FirstEdgesAfterReset_low :
    (booting false [true]).rst = true ∧ (booting false [true]).din = false ∧
    step (booting false [true]) = .next (after (booting false [true])) ∧
    (after (booting false [true])).Holds 0 ∧ (after (booting false [true])).din = true ∧
    step (booting false [false, false, true]) = .next (after (booting false [false, false, true])) ∧
    (after (booting false [false, false, true])).Holds 2 ∧
    (ahead 3 (booting false [false, false, true])).rst = false ∧
    (ahead 3 (booting false [false, false, true])).din = true :=
  ⟨by decide, by decide, steps_after (by decide), by decide, by decide, steps_after (by decide),
    by decide, by decide, by decide⟩
/-- With DIN high, a fall after one high cycle and a rise after one low cycle more. -/
theorem witness_FirstEdgesAfterReset_high :
    (booting true [true, false, false, true]).rst = true ∧
    (booting true [true, false, false, true]).din = true ∧
    step (booting true [true, false, false, true]) =
      .next (after (booting true [true, false, false, true])) ∧
    (after (booting true [true, false, false, true])).Holds 1 ∧
    (ahead 2 (booting true [true, false, false, true])).rst = false ∧
    (ahead 2 (booting true [true, false, false, true])).din = false ∧
    (ahead 3 (booting true [true, false, false, true])).Holds 1 ∧
    (ahead 4 (booting true [true, false, false, true])).rst = false ∧
    (ahead 4 (booting true [true, false, false, true])).din = true :=
  ⟨by decide, by decide, steps_after (by decide), by decide, by decide, by decide, by decide,
    by decide, by decide⟩
/-- No edge: the fourth cycle after the reset cycle is the first PTICK, the third a COUNT. -/
theorem witness_FirstEdgesAfterReset_tick :
    ∀ d : Bool, (after (booting d [d, d, d, d])).Holds 3 ∧ (ahead 4 (booting d [d, d, d, d])).rst = false ∧
      (ahead 4 (booting d [d, d, d, d])).din = d ∧
      (ahead 4 (booting d [d, d, d, d])).captureWord = 0b00001 ∧
      (ahead 3 (booting d [d, d, d, d])).captureWord = 0b00000 := by decide
/-- A line with a low phase of l, a high phase of h and the falling edge, from Capturing(f, b). -/
def line (f : BitVec 2) (b : BitVec 4) (l h : Nat) : State :=
  { capturing false false 1 0 f b 0 0 0 with
    stimulus := List.replicate (l - 1) { rst := false, din := false } ++
      (List.replicate h { rst := false, din := true } ++ { rst := false, din := false } :: []) }
/-- A One, a Zero, an Invalid one and the longest phases; the header, the middle and both ends. -/
theorem witness_AWholeSymbolIsReceived :
    (∀ b ∈ ([0, 5, 11, 12] : List (BitVec 4)), ∀ f ∈ ([0, 1, 2] : List (BitVec 2)), ∀ l h : Nat,
      (line f b l h).capt = true ∧ (line f b l h).dinq = false ∧ (line f b l h).tcnt = 1) ∧
    (∀ b ∈ ([0, 5, 11, 12] : List (BitVec 4)), ∀ f ∈ ([0, 1, 2] : List (BitVec 2)),
      (line f b 20 10).Ready) ∧
    Config.reference.tmax = 255 ∧
    (classify Config.reference 20 10 false, classify Config.reference 10 20 false,
      classify Config.reference 255 255 false, classify Config.reference 1 10 true) =
      (.one, .zero, .invalid, .one) := by
  refine ⟨fun b _ f _ l h => ⟨rfl, rfl, rfl⟩, by decide, by decide, by decide⟩

end Sys2Proof.Tests
end

section
/-! PROOFS. What no operation writes, and the statements about the configuration: its constancy (O16), the
width of INACT (O18) and the two windows (O24). -/

namespace Sys2Proof.Machine

/-! ### The configuration is written by nothing -/

@[simp] theorem advanceCapture_params (s t : State) : (advanceCapture s t).params = t.params := by
  unfold advanceCapture
  split
  · rfl
  · split <;> rfl

/-- Storing a symbol keeps the configuration, wherever its address lies. -/
theorem storeSymbol_params {s : State} {b : Bool} {x : Effect} (h : storeSymbol s b = .ok x) :
    x.after.params = s.params := by
  cases hm : memWrite s.fset s.symbolAddress 1 (BitVec.ofBool b) with
  | error f => simp [storeSymbol, hm, Bind.bind, Except.bind] at h
  | ok m =>
    have hx : quiet (advanceCapture s { s.prologue with fset := m, inact := 0 }) = .ok x := by
      simpa [storeSymbol, hm, Bind.bind, Except.bind] using h
    obtain rfl := Except.ok.inj hx
    simp

theorem fallBitEffect_params {s : State} {x : Effect} (h : fallBitEffect s = .ok x) :
    x.after.params = s.params := by
  unfold fallBitEffect at h
  split at h
  · rw [raiseAbort_eq] at h
    obtain rfl := Except.ok.inj h
    rfl
  · exact storeSymbol_params h
  · exact storeSymbol_params h

theorem ptickEffect_params {s : State} {x : Effect} (h : ptickEffect s = .ok x) :
    x.after.params = s.params := by
  unfold ptickEffect at h
  split at h
  · obtain rfl := Except.ok.inj h
    rfl
  · split at h
    · rw [raiseAbort_eq] at h
      obtain rfl := Except.ok.inj h
      rfl
    · obtain rfl := Except.ok.inj h
      rfl

theorem resetEffect_params {s : State} {x : Effect} (h : resetEffect s = .ok x) :
    x.after.params = s.params := by
  rw [resetEffect_eq] at h
  obtain rfl := Except.ok.inj h
  rfl

theorem analyzeEffect_params {s : State} {x : Effect} (h : analyzeEffect s = .ok x) :
    x.after.params = s.params := by
  obtain ⟨c, hc⟩ := analyzeEffect_after s
  obtain rfl := Except.ok.inj (hc.symm.trans h)
  rfl

/-- No operation writes the configuration, whatever state it runs from (R7, R115). -/
theorem effectOf_params {i : Instr} {s : State} {x : Effect} (h : effectOf i s = .ok x) :
    x.after.params = s.params := by
  cases i with
  | resetCapture => exact resetEffect_params h
  | resetConsumer => exact resetEffect_params h
  | ptick => exact ptickEffect_params h
  | fallBit => exact fallBitEffect_params h
  | analyze => exact analyzeEffect_params h
  | start =>
    obtain rfl := Except.ok.inj ((startEffect_eq s).symm.trans h)
    rfl
  | count => obtain rfl := Except.ok.inj h; rfl
  | rise => obtain rfl := Except.ok.inj h; rfl
  | fallIdle => obtain rfl := Except.ok.inj h; rfl
  | cidle => obtain rfl := Except.ok.inj h; rfl

/-- Every operation, RESET included, concludes its effect behind some refusal. -/
theorem exists_exec_eq_conclude (i : Instr) (s : State) :
    ∃ r, exec i s = conclude r (effectOf i s) := by
  cases i <;> exact ⟨_, rfl⟩

theorem exec_params {i : Instr} {s t : State} (h : exec i s = .next t) : t.params = s.params := by
  obtain ⟨r, hr⟩ := exists_exec_eq_conclude i s
  obtain ⟨-, x, hx, rfl⟩ := conclude_eq_next_iff.1 (hr.symm.trans h)
  exact effectOf_params hx

/-- The merge takes the configuration from one agent or the other. -/
theorem mergeWrites_params {p : Params} {sc sk : State} (k : Instr) (hc : sc.params = p)
    (hk : sk.params = p) : (mergeWrites k sc sk).params = p := by
  cases k with
  | resetConsumer => exact hk
  | _ => exact hc

theorem step_params {s t : State} (h : step s = .next t) : t.params = s.params := by
  obtain ⟨c, k, sc, sk, -, -, hc, hk, rfl⟩ := step_inversion h
  exact mergeWrites_params k (exec_params hc) (exec_params hk)

/-- Settles O16, operation by operation; a step merges two operations that both keep the record. -/
theorem configurationNeverChanges : Obligations.ConfigurationNeverChanges :=
  ⟨fun _ _ _ => exec_params, fun _ _ => step_params⟩

end Sys2Proof.Machine
end

section
namespace Sys2Proof

/-! ### The width of INACT -/

theorem Params.one_le_iw (p : Params) : 1 ≤ p.iw := Nat.le_add_left 1 _

/-- Exactly the widths from IW on hold P_TIMEOUT. The width 0 would hold a P_TIMEOUT of 0 and is left
out. -/
theorem Params.iw_le_iff (p : Params) {w : Nat} (hw : 1 ≤ w) : p.iw ≤ w ↔ p.timeout < 2 ^ w := by
  unfold Params.iw
  by_cases h0 : p.timeout = 0
  · simpa [h0] using hw
  · exact Nat.log2_lt h0

theorem Params.timeout_lt_two_pow_iw (p : Params) : p.timeout < 2 ^ p.iw :=
  (p.iw_le_iff p.one_le_iw).1 le_rfl

/-- Settles O18: the least width by `iw_le_iff`, and INACT through INV4. -/
theorem inactivityWidthIsLeast : Obligations.InactivityWidthIsLeast := by
  refine ⟨fun p => ⟨p.one_le_iw, p.timeout_lt_two_pow_iw, fun w hw => (p.iw_le_iff hw).2⟩, ?_⟩
  rintro s ⟨-, -, -, -, -, hinact, -⟩
  exact hinact.trans_lt s.params.timeout_lt_two_pow_iw

/-! ### The windows -/

theorem Params.inS_iff (p : Params) (d : Nat) :
    p.inS d = true ↔ p.bounds.shortMin ≤ d ∧ d ≤ p.bounds.shortMax := decide_eq_true_iff

theorem Params.inL_iff (p : Params) (d : Nat) :
    p.inL d = true ↔ p.bounds.longMin ≤ d ∧ d ≤ p.bounds.longMax := decide_eq_true_iff

theorem mem_allChecks (c : Check) : c ∈ allChecks := by
  cases c <;> decide

/-- A configuration is legal exactly when it passes every check (R246). -/
theorem Params.legal_iff (p : Params) : p.legal = true ↔ ∀ c, p.passes c = true := by
  simp [Params.legal, Params.failedChecks, mem_allChecks]

theorem Params.shortMin_lt_shortMax {p : Params} (h : p.legal = true) :
    p.bounds.shortMin < p.bounds.shortMax :=
  of_decide_eq_true (p.legal_iff.1 h .shortOrder)

theorem Params.longMin_lt_longMax {p : Params} (h : p.legal = true) :
    p.bounds.longMin < p.bounds.longMax :=
  of_decide_eq_true (p.legal_iff.1 h .longOrder)

/-- The boundary values of a window that is the closed interval from `lo` to `hi` (R144). -/
theorem closedWindow_boundary {inW : Nat → Bool} {lo hi : Nat}
    (hW : ∀ d, inW d = true ↔ lo ≤ d ∧ d ≤ hi) (hlt : lo < hi) :
    inW lo = true ∧ inW hi = true ∧ inW (hi + 1) = false ∧ (0 < lo → inW (lo - 1) = false) ∧
      (inW 0 = true ↔ lo = 0) := by
  simp only [← Bool.not_eq_true, hW]
  omega

/-- Settles O24: the two ranges as written, then the boundary values of each, whose minimum lies below its
maximum by the checks SHORT_ORDER and LONG_ORDER. -/
theorem windowsAreInclusive : Obligations.WindowsAreInclusive := by
  refine fun p => ⟨fun d => ⟨p.inS_iff d, p.inL_iff d⟩, fun h => ?_⟩
  obtain ⟨hSmin, hSmax, hSabove, hSbelow, hSzero⟩ :=
    closedWindow_boundary p.inS_iff (Params.shortMin_lt_shortMax h)
  obtain ⟨hLmin, hLmax, hLabove, hLbelow, hLzero⟩ :=
    closedWindow_boundary p.inL_iff (Params.longMin_lt_longMax h)
  exact ⟨hSmin, hSmax, hLmin, hLmax, hSabove, hLabove, hSbelow, hLbelow, hSzero, hLzero⟩

end Sys2Proof
end

section
/-! PROOFS. What a cycle without reset leaves, as a case split on what the capture agent does, and
the registers after the merge. -/

namespace Sys2Proof.Machine

/-! ### What the capture agent does in a cycle without reset, in four cases -/

/-- What a pure timer operation leaves: the prologue, LOWD and INACT (R121 to R124). -/
def State.timed (s : State) (l i : Nat) : State := { s.prologue with lowd := l, inact := i }

/-- What START leaves (R150). -/
def State.opened (s : State) : State :=
  { s.prologue.toCapturing 0 0 with lowd := s.tcnt, fset := writeBits s.fset 0 13 0, inact := 0 }

/-- What FALL_BIT has written with the symbol `b`, before the capture state advances (R153). -/
def State.withSymbol (s : State) (b : Bool) : State :=
  { s.prologue with fset := writeBits s.fset s.symbolAddress 1 (BitVec.ofBool b), inact := 0 }

@[simp] theorem withSymbol_fidx (s : State) (b : Bool) : (s.withSymbol b).fidx = s.fidx := rfl
@[simp] theorem withSymbol_pend (s : State) (b : Bool) : (s.withSymbol b).pend = s.pend := rfl
@[simp] theorem withSymbol_valid (s : State) (b : Bool) : (s.withSymbol b).valid = s.valid := rfl

/-- What FALL_BIT leaves with the symbol `b` (R153 to R155). -/
def State.stored (s : State) (b : Bool) : State := advanceCapture s (s.withSymbol b)

/-- The capture agent's part of a cycle without reset from `s`, with what each case says of `s`. -/
inductive CaptureCase (s : State) : State → Prop where
  | timer (l i : Nat) (hl : l = s.lowd ∨ l = s.tcnt)
      (hi : i = s.inact ∨ s.inact ≠ s.params.timeout ∧ i = s.inact + 1)
      (hm : ¬ s.Malformed) (ht : ¬ s.TimesOut) (hs : ¬ s.CompletesSet) : CaptureCase s (s.timed l i)
  | start (he : s.riseEdge = true) (hc : s.capt = false) : CaptureCase s s.opened
  | store (b : Bool) (he : s.fallEdge = true) (hc : s.capt = true) (hs : s.symbol ≠ .invalid) :
      CaptureCase s (s.stored b)
  | abort (h : s.Malformed ∨ s.TimesOut) : CaptureCase s s.prologue.aborted

theorem edge_of_fallEdge {s : State} (h : s.fallEdge = true) : s.edge = true := by
  simp [State.edge, h]

theorem edge_of_riseEdge {s : State} (h : s.riseEdge = true) : s.edge = true := by
  simp [State.edge, h]

theorem not_timesOut_of_edge {s : State} (h : s.edge = true) : ¬ s.TimesOut :=
  fun ht => Bool.false_ne_true (ht.1.symm.trans h)

/-- A cycle without a falling edge while Capturing decides no symbol. -/
theorem timer_of_no_symbol {s : State} {l i : Nat} (hf : ¬ (s.fallEdge = true ∧ s.capt = true))
    (ht : ¬ s.TimesOut) (hl : l = s.lowd ∨ l = s.tcnt)
    (hi : i = s.inact ∨ s.inact ≠ s.params.timeout ∧ i = s.inact + 1) :
    CaptureCase s (s.timed l i) :=
  .timer l i hl hi (fun h => hf ⟨h.1, h.2.1⟩) ht (fun h => hf ⟨h.1, h.2.1⟩)

theorem captureAfter_case (s : State) : CaptureCase s s.captureAfter := by
  unfold State.captureAfter
  cases hu : s.riseEdge
  case true =>
    have hd : s.fallEdge = false := by simpa [hu] using not_rise_and_fall s
    cases hc : s.capt
    · exact .start hu hc
    · exact timer_of_no_symbol (by simp [hd]) (not_timesOut_of_edge (edge_of_riseEdge hu))
        (.inr rfl) (.inl rfl)
  case false =>
    cases hd : s.fallEdge
    case true =>
      cases hc : s.capt
      · exact timer_of_no_symbol (by simp [hc]) (not_timesOut_of_edge (edge_of_fallEdge hd))
          (.inl rfl) (.inl rfl)
      · cases hs : s.symbol
        · exact .store true hd hc (by simp [hs])
        · exact .store false hd hc (by simp [hs])
        · exact .abort (.inl ⟨hd, hc, hs⟩)
    case false =>
      have he : s.edge = false := by simp [State.edge, hu, hd]
      cases ho : s.ovf
      · exact timer_of_no_symbol (by simp [hd]) (by simp [ho]) (.inl rfl) (.inl rfl)
      · cases hp : s.pend
        · by_cases hi : s.inact = s.params.timeout
          · rw [if_pos hi]
            exact .abort (.inr ⟨he, ho, hp, hi⟩)
          · rw [if_neg hi]
            exact timer_of_no_symbol (by simp [hd]) (by simp [hi]) (.inl rfl) (.inr ⟨hi, rfl⟩)
        · exact timer_of_no_symbol (by simp [hd]) (by simp [hp]) (.inl rfl) (.inl rfl)

/-! ### The registers after a cycle -/

@[simp] theorem cycleAfter_fset (s : State) :
    s.cycleAfter.fset = if s.pend then 0 else s.captureAfter.fset := rfl
@[simp] theorem cycleAfter_pend (s : State) :
    s.cycleAfter.pend = if s.pend then false else s.captureAfter.pend := rfl
@[simp] theorem cycleAfter_valid (s : State) :
    s.cycleAfter.valid = if s.pend then decide s.Unanimous else s.captureAfter.valid := rfl
@[simp] theorem cycleAfter_data (s : State) :
    s.cycleAfter.data = if s.pend = true ∧ s.Unanimous then s.newData else s.data := rfl
@[simp] theorem cycleAfter_chg (s : State) :
    s.cycleAfter.chg = decide (s.pend = true ∧ s.Unanimous ∧ s.newData ≠ s.data) := rfl

/-- The two ways a step answers: a reset cycle, and a cycle of a Ready state. -/
theorem eq_resetAfter_or_cycleAfter {s t : State} (h : step s = .next t) :
    (s.params.legal = true ∧ t = s.resetAfter) ∨ (s.Ready ∧ t = s.cycleAfter) := by
  obtain ⟨-, e⟩ | ⟨hl, -, e⟩ | ⟨-, -, -, e⟩ | ⟨-, -, -, -, e⟩ | ⟨hs, -, e⟩ := step_cases s
  · exact nomatch h.symm.trans e
  · exact .inl ⟨hl, Host.Outcome.next.inj (h.symm.trans e)⟩
  · exact nomatch h.symm.trans e
  · exact nomatch h.symm.trans e
  · exact .inr ⟨hs, Host.Outcome.next.inj (h.symm.trans e)⟩

end Sys2Proof.Machine
end

section
/-! PROOFS. The invariants of R39: they hold at reset (O7), after every step (O9), and so no run from
a Ready state stops (O8). -/

namespace Sys2Proof.Machine

/-! ### The invariants, in the two parts the two agents share out -/

/-- The invariants about the capture agent's own registers, which the consumer does not write. -/
def State.CaptureInv (s : State) : Prop := s.Inv1 ∧ s.Inv3 ∧ s.Inv4 ∧ s.Widths

/-- The invariants about PEND and FSET, which both agents write. -/
def State.SharedInv (s : State) : Prop := s.Inv2 ∧ s.Inv6 ∧ s.Inv7

theorem inv_iff_captureInv_and_sharedInv (s : State) : s.Inv ↔ s.CaptureInv ∧ s.SharedInv := by
  unfold State.CaptureInv State.SharedInv State.Inv
  tauto

/-- INV7 by bit addresses: in Capturing every bit not yet received is 0, those of frame FIDX up to
the next symbol's and those of the frames after it. -/
theorem inv7_iff (s : State) :
    s.Inv7 ↔ (s.capt = true → ∀ a,
      13 * s.fidx.toNat ≤ a ∧ a ≤ s.symbolAddress ∨ 13 * (s.fidx.toNat + 1) ≤ a →
      s.fset.getLsbD a = false) := by
  simp only [State.symbolAddress, State.symbolPosition]
  refine imp_congr_right fun _ =>
    ⟨fun ⟨hafter, hbelow⟩ a ha => ?_, fun h => ⟨fun k hk => ?_, fun p hp => ?_⟩⟩
  · by_cases h39 : a < 39
    · obtain ⟨h1, h2⟩ | h1 := ha
      · have := hbelow ⟨a - 13 * s.fidx.toNat, by omega⟩ (by simp only; omega)
        rwa [frameBit, Nat.add_sub_cancel' h1] at this
      · have hk := hafter ⟨a / 13, by omega⟩ (by simp only; omega)
        have := getLsbD_frameWord s.fset (a / 13) (a % 13) (by omega)
        rw [frameBit, Nat.div_add_mod, hk] at this
        simpa using this.symm
    · exact BitVec.getLsbD_of_ge _ _ (by omega)
  · refine BitVec.eq_of_getLsbD_eq fun p hp => ?_
    rw [getLsbD_frameWord _ _ _ hp, frameBit, h _ (.inr (by omega))]
    simp
  · exact h _ (.inl (by omega))

theorem inv7_of_fset_eq_zero {s : State} (h : s.fset = 0) : s.Inv7 := by
  refine (inv7_iff s).2 fun _ a _ => ?_
  rw [h]
  exact BitVec.getLsbD_zero

/-! ### An emptied core, as a full reset leaves it -/

/-- The registers the full reset clears are clear (R170). -/
def State.Emptied (s : State) : Prop :=
  s.capt = false ∧ s.fidx = 0 ∧ s.bidx = 0 ∧ s.fset = 0 ∧ s.inact = 0 ∧ s.pend = false

theorem inv_of_emptied {s : State} (h : s.Emptied) (hw : s.Widths) : s.Inv := by
  obtain ⟨hc, hf, hb, hm, hi, hp⟩ := h
  exact ⟨fun _ => ⟨hf, hb⟩, fun _ => hc, ⟨by simp [hf], by simp [hb]⟩, hi.le.trans (Nat.zero_le _),
    fun _ _ => hm, by simp [hc], hw⟩

theorem emptied_aborted (s : State) : s.aborted.Emptied := ⟨rfl, rfl, rfl, rfl, rfl, rfl⟩

theorem emptied_resetAfter (s : State) : s.resetAfter.Emptied := ⟨rfl, rfl, rfl, rfl, rfl, rfl⟩

theorem ready_resetAfter {s : State} (h : s.params.legal = true) : s.resetAfter.Ready :=
  ⟨h, rfl, inv_of_emptied (emptied_resetAfter s) ⟨Nat.zero_le _, Nat.zero_le _⟩⟩

/-! ### The capture agent keeps the invariants -/

theorem two_le_tw_of_legal {p : Params} (h : p.legal = true) : 2 ≤ p.tw :=
  of_decide_eq_true (p.legal_iff.1 h .twMin)

/-- TCNT stays in its P_TW bits: it restarts at 1, which fits, or wraps (R17, R120). -/
theorem prologue_tcnt_le_tmax {s : State} (h : s.params.legal = true) :
    s.prologue.tcnt ≤ s.params.tmax := by
  have h4 : 2 ^ 2 ≤ 2 ^ s.params.tw := Nat.pow_le_pow_right (by decide) (two_le_tw_of_legal h)
  have hmod := Nat.mod_lt (s.tcnt + 1) (show 2 ^ s.params.tw > 0 by omega)
  rw [State.prologue_tcnt, Params.tmax]
  split
  · omega
  · omega

/-- The three ways a stored symbol advances the capture (R153 to R155), where the indices are in
range. -/
theorem stored_cases {s : State} (h : s.Inv3) (b : Bool) :
    (s.bidx.toNat < 12 ∧ (s.bidx + 1).toNat = s.bidx.toNat + 1 ∧
      s.stored b = { s.withSymbol b with bidx := s.bidx + 1 }) ∨
    (s.bidx.toNat = 12 ∧ s.fidx.toNat < 2 ∧ (s.fidx + 1).toNat = s.fidx.toNat + 1 ∧
      s.stored b = (s.withSymbol b).toCapturing (s.fidx + 1) 0) ∨
    (s.bidx = 12 ∧ s.fidx = 2 ∧ s.stored b = { (s.withSymbol b).toIdle with pend := true }) := by
  obtain ⟨hf, hb⟩ := h
  unfold State.stored advanceCapture
  split
  · exact .inl ⟨‹_›, by bv_omega, rfl⟩
  · split
    · exact .inr (.inl ⟨by omega, ‹_›, by bv_omega, rfl⟩)
    · exact .inr (.inr ⟨by bv_omega, by bv_omega, rfl⟩)

/-- A timer operation leaves a valid duration in LOWD and counts no tick past P_TIMEOUT. -/
theorem captureInv_timed {s : State} (h : s.Ready) {l i : Nat} (hl : l = s.lowd ∨ l = s.tcnt)
    (hi : i = s.inact ∨ s.inact ≠ s.params.timeout ∧ i = s.inact + 1) :
    (s.timed l i).CaptureInv := by
  obtain ⟨hlegal, -, h1, -, h3, h4, -, -, htcnt, hlowd⟩ := h
  have hi' : i ≤ s.params.timeout := by omega
  have hl' : l ≤ s.params.tmax := by omega
  exact ⟨h1, h3, hi', prologue_tcnt_le_tmax hlegal, hl'⟩

theorem captureInv_opened {s : State} (h : s.Ready) : s.opened.CaptureInv := by
  obtain ⟨hlegal, -, -, -, -, -, -, -, htcnt, -⟩ := h
  exact ⟨nofun, ⟨Nat.zero_le _, Nat.zero_le _⟩, Nat.zero_le _, prologue_tcnt_le_tmax hlegal, htcnt⟩

theorem captureInv_stored {s : State} (h : s.Ready) (hc : s.capt = true) (b : Bool) :
    (s.stored b).CaptureInv := by
  obtain ⟨hlegal, -, -, -, h3, -, -, -, -, hlowd⟩ := h
  have htcnt := prologue_tcnt_le_tmax hlegal
  obtain ⟨hb, hb', e⟩ | ⟨-, hf, hf', e⟩ | ⟨-, -, e⟩ := stored_cases h3 b
  · rw [e]
    have hidle : s.capt ≠ false := by simp [hc]
    have hbidx : (s.bidx + 1).toNat ≤ 12 := by omega
    exact ⟨fun hi => absurd hi hidle, ⟨h3.1, hbidx⟩, Nat.zero_le _, htcnt, hlowd⟩
  · rw [e]
    have hfidx : (s.fidx + 1).toNat ≤ 2 := by omega
    exact ⟨nofun, ⟨hfidx, Nat.zero_le _⟩, Nat.zero_le _, htcnt, hlowd⟩
  · rw [e]
    exact ⟨fun _ => ⟨rfl, rfl⟩, ⟨Nat.zero_le _, Nat.zero_le _⟩, Nat.zero_le _, htcnt, hlowd⟩

/-- The bit just stored and those received before it lie outside the part INV7 keeps 0. -/
theorem sharedInv_stored {s : State} (h : s.Inv) (hc : s.capt = true) (b : Bool) :
    (s.stored b).SharedInv := by
  obtain ⟨-, h2, h3, -, -, h7, -⟩ := h
  have hidle : s.capt ≠ false := by simp [hc]
  have hpend : s.pend ≠ true := fun hp => hidle (h2 hp)
  have hkeep : ∀ a, a ≠ s.symbolAddress →
      13 * s.fidx.toNat ≤ a ∧ a ≤ s.symbolAddress ∨ 13 * (s.fidx.toNat + 1) ≤ a →
      (writeBits s.fset s.symbolAddress 1 (BitVec.ofBool b)).getLsbD a = false := fun a ha hv => by
    rw [getLsbD_writeBits _ _ _ _ (inFrame_bound (inFrame_symbolAddress h3)), if_neg (by omega)]
    exact (inv7_iff s).1 h7 hc a hv
  simp only [State.symbolAddress, State.symbolPosition] at hkeep
  obtain ⟨hb, hb', e⟩ | ⟨hb, hf, hf', e⟩ | ⟨-, -, e⟩ := stored_cases h3 b
  · rw [e]
    refine ⟨fun hp => absurd hp hpend, fun hi => absurd hi hidle, (inv7_iff _).2 fun _ a ha => ?_⟩
    simp only [State.symbolAddress, State.symbolPosition, hb', withSymbol_fidx] at ha
    exact hkeep a (by omega) (by omega)
  · rw [e]
    refine ⟨fun hp => absurd hp hpend, nofun, (inv7_iff _).2 fun _ a ha => ?_⟩
    simp only [State.symbolAddress, State.symbolPosition, State.toCapturing_fidx,
      State.toCapturing_bidx, hf'] at ha
    exact hkeep a (by omega) (by omega)
  · rw [e]
    exact ⟨fun _ => rfl, nofun, nofun⟩

/-- With nothing pending START finds FSET clear, and leaves it so. -/
theorem sharedInv_opened {s : State} (h : s.Inv) (hc : s.capt = false) (hp : s.pend = false) :
    s.opened.SharedInv := by
  obtain ⟨-, -, -, -, h6, -, -⟩ := h
  have hm : s.opened.fset = 0 := by
    rw [State.opened, h6 hc hp, writeBits_zero_frame0]
  have hpend : s.pend ≠ true := by simp [hp]
  exact ⟨fun hp => absurd hp hpend, nofun, inv7_of_fset_eq_zero hm⟩

theorem inv_aborted {s : State} (h : s.Ready) : s.prologue.aborted.Inv := by
  obtain ⟨hlegal, -, -, -, -, -, -, -, -, hlowd⟩ := h
  exact inv_of_emptied (emptied_aborted _) ⟨prologue_tcnt_le_tmax hlegal, hlowd⟩

theorem CaptureCase.captureInv {s t : State} (h : CaptureCase s t) (hs : s.Ready) :
    t.CaptureInv := by
  cases h with
  | timer l i hl hi => exact captureInv_timed hs hl hi
  | start => exact captureInv_opened hs
  | store b _ hc => exact captureInv_stored hs hc b
  | abort => exact ((inv_iff_captureInv_and_sharedInv _).1 (inv_aborted hs)).1

theorem CaptureCase.sharedInv {s t : State} (h : CaptureCase s t) (hs : s.Ready)
    (hp : s.pend = false) : t.SharedInv := by
  have ⟨_, _, hinv⟩ := hs
  cases h with
  | timer => exact ((inv_iff_captureInv_and_sharedInv s).1 hinv).2
  | start _ hc => exact sharedInv_opened hinv hc hp
  | store b _ hc => exact sharedInv_stored hinv hc b
  | abort => exact ((inv_iff_captureInv_and_sharedInv _).1 (inv_aborted hs)).2

/-- An analysis leaves PEND and FSET clear, wherever the capture agent went in its cycle. -/
theorem sharedInv_of_consumed {t : State} (hp : t.pend = false) (hm : t.fset = 0) :
    t.SharedInv := by
  have hpend : t.pend ≠ true := by simp [hp]
  exact ⟨fun hp => absurd hp hpend, fun _ _ => hm, inv7_of_fset_eq_zero hm⟩

theorem sharedInv_cycleAfter {s : State} (h : s.Ready) : s.cycleAfter.SharedInv := by
  cases hp : s.pend
  · have hc := (captureAfter_case s).sharedInv h hp
    have hpend : s.cycleAfter.pend = s.captureAfter.pend := by simp [hp]
    have hfset : s.cycleAfter.fset = s.captureAfter.fset := by simp [hp]
    unfold State.SharedInv State.Inv2 State.Inv6 State.Inv7
    rw [hpend, hfset]
    exact hc
  · exact sharedInv_of_consumed (by simp [hp]) (by simp [hp])

/-- A cycle without reset keeps a Ready state Ready: the merge leaves the capture agent's own
registers as that agent wrote them, and PEND and FSET as it left them or consumed. -/
theorem ready_cycleAfter {s : State} (h : s.Ready) : s.cycleAfter.Ready := by
  have ⟨hlegal, hreset, _⟩ := h
  obtain ⟨hparams, hkeep, -⟩ := captureAfter_keeps s
  refine ⟨(congrArg Params.legal hparams).trans hlegal, hkeep.trans hreset, ?_⟩
  have hc : s.cycleAfter.CaptureInv := (captureAfter_case s).captureInv h
  exact (inv_iff_captureInv_and_sharedInv _).2 ⟨hc, sharedInv_cycleAfter h⟩

/-! ### The invariants hold in every run -/

/-- Settles O9: a step answers only with a reset state or with the cycle of a Ready state. -/
theorem everyNextStateIsReady : Obligations.EveryNextStateIsReady := by
  intro s t h
  obtain ⟨hl, rfl⟩ | ⟨hs, rfl⟩ := eq_resetAfter_or_cycleAfter h
  · exact ready_resetAfter hl
  · exact ready_cycleAfter hs

/-- Settles O8, by the level of RST: a Ready state is refused under neither. -/
theorem everyReadyStateStepsToAReadyState : Obligations.EveryReadyStateStepsToAReadyState := by
  intro s h
  cases hr : s.rst
  · obtain ⟨hparams, -, hstim, hcycle, -⟩ := captureAfter_keeps s
    exact ⟨s.cycleAfter, step_of_ready h hr, ready_cycleAfter h, hparams, congrArg List.tail hstim,
      congrArg (· + 1) hcycle⟩
  · exact ⟨s.resetAfter, step_of_reset h.1 hr, ready_resetAfter h.1, rfl, rfl, rfl⟩

/-- Settles O7: the reset state is an emptied core in a legal configuration. -/
theorem resetStateIsReady : Obligations.ResetStateIsReady := by
  have hlegal : State.reset.params.legal = true := by decide
  have hinv : State.reset.Inv :=
    inv_of_emptied ⟨rfl, rfl, rfl, rfl, rfl, rfl⟩ ⟨Nat.zero_le _, Nat.zero_le _⟩
  exact ⟨⟨hlegal, rfl, hinv⟩, nofun, ⟨rfl, rfl⟩, rfl, rfl, rfl, rfl, rfl, rfl⟩

end Sys2Proof.Machine
end

section
/-! PROOFS. The registers over one cycle: RESET (O57), PEND (O11, O49), VALID (O50), DATA and CHG
(O51, O52). -/

namespace Sys2Proof.Machine

/-- Settles O57: both RESET rows conclude the one effect, refused only where there is no
hardware. -/
theorem resetWritesEveryRegister : Obligations.ResetWritesEveryRegister := by
  intro s i hi hl
  have h : exec i s = conclude s.resetRefusal (resetEffect s) := by
    obtain rfl | rfl := hi
    · rfl
    · rfl
  rw [h, (resetRefusal_eq_none_iff s).2 hl, resetEffect_eq, conclude_none_ok]

/-! ### PEND -/

theorem pend_eq_false_of_step {s t : State} (h : step s = .next t) (hp : s.pend = true) :
    t.pend = false := by
  obtain ⟨-, rfl⟩ | ⟨-, rfl⟩ := eq_resetAfter_or_cycleAfter h
  · rfl
  · simp [hp]

/-- Settles O11: every step, a reset cycle too, ends a pending analysis. -/
theorem pendLastsOneCycle : Obligations.PendLastsOneCycle := by
  intro s h hp
  obtain ⟨t, ht, -⟩ := everyReadyStateStepsToAReadyState s h
  exact ⟨t, ht, pend_eq_false_of_step ht hp⟩

/-- A stored symbol completes a set exactly where it is the last of frame 2 (R155). -/
theorem stored_pend {s : State} (h : s.Inv3) (hp : s.pend = false) (b : Bool) :
    (s.stored b).pend = true ↔ s.bidx = 12 ∧ s.fidx = 2 := by
  obtain ⟨hb, -, e⟩ | ⟨-, hf, -, e⟩ | ⟨hb, hf, e⟩ := stored_cases h b
  · have hne : s.bidx ≠ 12 := by bv_omega
    rw [e]
    exact iff_of_false (by simp [hp]) fun hl => hne hl.1
  · have hne : s.fidx ≠ 2 := by bv_omega
    rw [e]
    exact iff_of_false (by simp [hp]) fun hl => hne hl.2
  · rw [e]
    exact iff_of_true rfl ⟨hb, hf⟩

theorem not_completesSet_of_abort {s : State} (h : s.Malformed ∨ s.TimesOut) :
    ¬ s.CompletesSet := by
  rintro ⟨he, -, hs, -⟩
  obtain ⟨-, -, hi⟩ | ht := h
  · exact hs hi
  · exact not_timesOut_of_edge (edge_of_fallEdge he) ht

/-- With nothing pending the capture agent sets PEND exactly in the cycle that completes a set. -/
theorem CaptureCase.pend_iff {s t : State} (h : CaptureCase s t) (h3 : s.Inv3)
    (hp : s.pend = false) : t.pend = true ↔ s.CompletesSet := by
  cases h with
  | timer _ _ _ _ _ _ hn => simpa [State.timed, hp] using hn
  | start _ hc => simp [State.opened, hp, hc]
  | store b he hc hs => simp [stored_pend h3 hp, State.CompletesSet, he, hc, hs]
  | abort ha => simpa [State.aborted] using not_completesSet_of_abort ha

/-- A periodic tick is suppressed while an analysis is pending (R122). -/
theorem exec_ptick_of_pend {s : State} (h : s.Ready) (hp : s.pend = true) :
    exec .ptick s = .next s.prologue := by
  rw [exec_eq_conclude s (by decide) (by decide), refusal_of_ready h]
  simp [effectOf, ptickEffect, hp, quiet]

/-- Settles O49: a pending analysis excludes Capturing (INV2), so the cycle that consumes it
completes no set. -/
theorem pendIsSetBySetCompleteOnly : Obligations.PendIsSetBySetCompleteOnly := by
  refine ⟨fun s h hr => ⟨_, step_of_ready h hr, ?_⟩,
    fun s h hp => ⟨_, exec_ptick_of_pend h hp, rfl⟩⟩
  obtain ⟨-, -, -, h2, h3, -⟩ := h
  rw [cycleAfter_pend]
  cases hp : s.pend
  · exact (captureAfter_case s).pend_iff h3 hp
  · simp [h2 hp]

/-! ### VALID, DATA and CHG -/

@[simp] theorem advanceCapture_valid (s t : State) : (advanceCapture s t).valid = t.valid := by
  unfold advanceCapture
  split
  · rfl
  · split <;> rfl

/-- The capture agent clears VALID in an abort or a timeout, and else keeps it. -/
theorem CaptureCase.valid {s t : State} (h : CaptureCase s t) :
    (s.Malformed ∨ s.TimesOut → t.valid = false) ∧
    (¬ s.Malformed → ¬ s.TimesOut → t.valid = s.valid) := by
  cases h with
  | timer _ _ _ _ hm ht => exact ⟨fun h => (h.elim hm ht).elim, fun _ _ => rfl⟩
  | start he hc =>
    have hm : ¬ s.Malformed := by simp [hc]
    have ht : ¬ s.TimesOut := not_timesOut_of_edge (edge_of_riseEdge he)
    exact ⟨fun h => (h.elim hm ht).elim, fun _ _ => rfl⟩
  | store b he hc hs =>
    have hm : ¬ s.Malformed := by simp [hs]
    have ht : ¬ s.TimesOut := not_timesOut_of_edge (edge_of_fallEdge he)
    exact ⟨fun h => (h.elim hm ht).elim, fun _ _ => by simp [State.stored]⟩
  | abort h => exact ⟨fun _ => rfl, fun hm ht => (h.elim hm ht).elim⟩

/-- Settles O50: the verdict where an analysis is pending, and else what the capture agent
leaves. -/
theorem validFollowsAnalysisAbortAndTimeout : Obligations.ValidFollowsAnalysisAbortAndTimeout := by
  intro s h hr
  obtain ⟨hclear, hkeep⟩ := (captureAfter_case s).valid
  refine ⟨_, step_of_ready h hr, fun hp => ?_, fun hp ha => ?_, fun hp hm ht => ?_, rfl⟩
  · simp [hp]
  · simpa [hp] using hclear ha
  · simpa [hp] using hkeep hm ht

/-- Settles O51: CHG is raised under the very conditions under which DATA takes a new value. -/
theorem dataChangesExactlyWithChg : Obligations.DataChangesExactlyWithChg := by
  intro s h hr
  refine ⟨_, step_of_ready h hr, rfl, ?_, rfl, rfl⟩
  rw [cycleAfter_chg, cycleAfter_data, decide_eq_true_iff, ← and_assoc]
  by_cases hu : s.pend = true ∧ s.Unanimous
  · rw [if_pos hu, and_iff_right hu]
  · simp [hu]

/-- Only an analysis raises CHG. -/
theorem pend_of_step_chg {s t : State} (h : step s = .next t) (hc : t.chg = true) :
    s.pend = true := by
  obtain ⟨-, rfl⟩ | ⟨-, rfl⟩ := eq_resetAfter_or_cycleAfter h
  · exact nomatch hc
  · exact (of_decide_eq_true hc).1

theorem chg_eq_false_of_step {s t : State} (h : step s = .next t) (hp : s.pend = false) :
    t.chg = false :=
  Bool.eq_false_iff.2 fun hc => Bool.false_ne_true (hp.symm.trans (pend_of_step_chg h hc))

/-- Settles O52: a pulse follows only a pending analysis, and the step that answers it leaves none
pending. -/
theorem chgIsAOneCyclePulse : Obligations.ChgIsAOneCyclePulse := by
  refine ⟨fun s t u hs hc ht => ?_, fun s t ⟨hp, _⟩ hs => chg_eq_false_of_step hs hp⟩
  exact chg_eq_false_of_step ht (pend_eq_false_of_step hs (pend_of_step_chg hs hc))

end Sys2Proof.Machine
end

section
/-! PROOFS. The cycle and its FrameSet memory: the two operations merged (O1), no faults (O12), read after
write (O19), the handoff to the analysis (O48) and the operations that store nothing (O54). -/

namespace Sys2Proof.Machine

/-! ### The cycle -/

theorem step_eq_joinAgents {s : State} {c k : Instr} (hc : s.captureOp = .ok c)
    (hk : s.consumerOp = .ok k) : step s = joinAgents k (exec c s) (exec k s) := by
  unfold step
  rw [hc, hk]

/-- Settles O1: the merge keeps, for each consumer operation, exactly the registers it writes. -/
theorem stepRunsTheDecodedOperations : Obligations.StepRunsTheDecodedOperations := by
  intro s c k hc hk
  have hstep : step s = joinAgents k (exec c s) (exec k s) := step_eq_joinAgents hc hk
  refine ⟨hstep, fun sc sk hsc hsk => ⟨_, ?_, rfl, ?_, ?_, ?_⟩, fun r hr => ?_⟩
  · rw [hstep, hsc, hsk]
    rfl
  · rintro rfl; rfl
  · rintro rfl; rfl
  · rintro rfl; rfl
  · rw [hstep, hr]
    rfl

/-- Settles O12: whatever the state, the step answers a next state or a refusal. -/
theorem noStepFaults : Obligations.NoStepFaults := by
  intro s f hf
  obtain ⟨-, e⟩ | ⟨-, -, e⟩ | ⟨-, -, -, e⟩ | ⟨-, -, -, -, e⟩ | ⟨-, -, e⟩ := step_cases s
  all_goals exact nomatch hf.symm.trans e

/-! ### Read after write -/

theorem memRead_not_inFrame {a n : Nat} (m : FsetBits) (h : ¬ inFrame a n = true) :
    memRead m a n = .error (.outsideFrame a n) := if_neg h

theorem memWrite_not_inFrame {a n : Nat} (m : FsetBits) (v : BitVec n) (h : ¬ inFrame a n = true) :
    memWrite m a n v = .error (.outsideFrame a n) := if_neg h

/-- A read at the address just written gives the value written (R61, R62). -/
theorem readBits_writeBits_same (m : FsetBits) {a n : Nat} (v : BitVec n) (h : a + n ≤ 39) :
    readBits (writeBits m a n v) a n = v := by
  refine BitVec.eq_of_getLsbD_eq fun i hi => ?_
  rw [getLsbD_readBits, getLsbD_writeBits m a n v h, if_pos (by omega), Nat.add_sub_cancel_left,
    decide_eq_true hi, Bool.true_and]

/-- Settles O19: inside one frame an access meets no fault, and stays inside FSET. -/
theorem fsetReadAfterWrite : Obligations.FsetReadAfterWrite := by
  refine fun m a n v => ⟨fun hn ha => ?_, fun h => ?_⟩
  · have hin : inFrame a n = true := inFrame_iff.2 ⟨hn, ha⟩
    have hbound : a + n ≤ 39 := inFrame_bound hin
    refine ⟨writeBits m a n v, memWrite_inFrame m v hin, getLsbD_writeBits m a n v hbound, ?_,
      readBits m a n, memRead_inFrame m hin, fun i hi => ?_⟩
    · rw [memRead_inFrame _ hin, readBits_writeBits_same m v hbound]
    · rw [getLsbD_readBits, decide_eq_true hi, Bool.true_and]
  · have hout : ¬ inFrame a n = true := mt inFrame_iff.1 h
    exact ⟨memWrite_not_inFrame m v hout, memRead_not_inFrame m hout⟩

/-! ### The handoff -/

/-- From Idle with both indices 0 no capture operation moves an index: only FALL_BIT advances one, and it
runs in Capturing. -/
theorem CaptureCase.indices_eq_zero {s t : State} (h : CaptureCase s t) (hc : s.capt = false)
    (hf : s.fidx = 0) (hb : s.bidx = 0) : t.fidx = 0 ∧ t.bidx = 0 := by
  cases h with
  | timer => exact ⟨hf, hb⟩
  | start => exact ⟨rfl, rfl⟩
  | store b _ hcapt => exact absurd (hc.symm.trans hcapt) Bool.false_ne_true
  | abort => exact ⟨rfl, rfl⟩

/-- A pending analysis is in Idle with both indices 0 (INV2, INV1), and its cycle leaves them 0. -/
theorem cycleAfter_indices_of_pend {s : State} (h : s.Ready) (hp : s.pend = true) :
    s.cycleAfter.fidx = 0 ∧ s.cycleAfter.bidx = 0 := by
  obtain ⟨-, -, hinv1, hinv2, -⟩ := h
  have hidle : s.capt = false := hinv2 hp
  obtain ⟨hf, hb⟩ := hinv1 hidle
  exact (captureAfter_case s).indices_eq_zero hidle hf hb

/-- The ports after the cycle of a pending analysis show its outcome (R181 to R183, R199). -/
theorem cycleAfter_ports_of_pend {s : State} (hp : s.pend = true) :
    s.cycleAfter.ports =
      { vt := decide s.Unanimous
        dout := if s.Unanimous then s.newData else s.data
        chg := decide (s.Unanimous ∧ s.newData ≠ s.data) } := by
  simp [State.ports, hp]

/-- Settles O48: the completing step leaves a Ready state, whose cycle is the analysis of its own
FrameSet. -/
theorem frameSetHandoff : Obligations.FrameSetHandoff := by
  intro s t _ _ hst hp hr
  have ht : t.Ready := everyNextStateIsReady s t hst
  obtain ⟨hf, hb⟩ := cycleAfter_indices_of_pend ht hp
  refine ⟨t.cycleAfter, step_of_ready ht hr, by simp [hp], by simp [hp], hf, hb, ?_⟩
  rw [cycleAfter_ports_of_pend hp]
  exact ⟨decide_eq_true_iff, rfl, decide_eq_true_iff⟩

/-! ### The operations that store nothing -/

/-- A PTICK that is no timeout writes, beside the prologue, at most INACT (R122). -/
theorem ptickEffect_of_no_timeout {s : State} (h : s.pend = true ∨ s.inact ≠ s.params.timeout) :
    ∃ n, ptickEffect s = quiet { s.prologue with inact := n } := by
  unfold ptickEffect
  by_cases hp : s.pend = true
  · exact ⟨s.inact, if_pos hp⟩
  · exact ⟨s.inact + 1, by rw [if_neg hp, if_neg (h.resolve_left hp)]⟩

/-- The operations that store nothing write no register but DINQ, TCNT, LOWD, INACT and CHG. -/
theorem effectOf_of_nonStoring {i : Instr} {s : State}
    (h : i = .count ∨ i = .rise ∨ i = .fallIdle ∨ i = .cidle ∨
      (i = .ptick ∧ (s.pend = true ∨ s.inact ≠ s.params.timeout))) :
    ∃ q k l n g, effectOf i s =
      quiet { s with dinq := q, tcnt := k, lowd := l, inact := n, chg := g } := by
  obtain rfl | rfl | rfl | rfl | ⟨rfl, ht⟩ := h
  · exact ⟨_, _, _, _, _, rfl⟩
  · exact ⟨_, _, _, _, _, rfl⟩
  · exact ⟨_, _, _, _, _, rfl⟩
  · exact ⟨_, _, _, _, _, rfl⟩
  · obtain ⟨n, hn⟩ := ptickEffect_of_no_timeout ht
    exact ⟨_, _, _, n, _, hn⟩

/-- Settles O54: every register the statement names is outside those five. -/
theorem nonStoringOperationsKeepFset : Obligations.NonStoringOperationsKeepFset := by
  intro i s t hi h
  obtain ⟨r, hr⟩ := exists_exec_eq_conclude i s
  obtain ⟨-, x, hx, rfl⟩ := conclude_eq_next_iff.1 (hr.symm.trans h)
  obtain ⟨q, k, l, n, g, he⟩ := effectOf_of_nonStoring hi
  obtain rfl := Except.ok.inj (he.symm.trans hx)
  exact ⟨fun _ => rfl, rfl, rfl, rfl, rfl, rfl, rfl⟩

end Sys2Proof.Machine
end

section
/-! PROOFS. The control words: their bits (O2, O3), the rows of the operation map (O4, O5), and the
agreement of decoder and encoder (O6). -/

namespace Sys2Proof

/-! ### The rows of the operation map -/

/-- A word selects an operation exactly when it matches a row of it: no word matches two rows (R89). -/
theorem decodeCapture_eq_ok_iff {w : CaptureWord} {i : Instr} :
    decodeCapture w = .ok i ↔ ∃ r ∈ captureRows, w &&& r.mask = r.pattern ∧ r.op = i := by
  revert w
  cases i with
  | _ => decide

theorem decodeConsumer_eq_ok_iff {w : ConsumerWord} {i : Instr} :
    decodeConsumer w = .ok i ↔ ∃ r ∈ consumerRows, w &&& r.mask = r.pattern ∧ r.op = i := by
  revert w
  cases i with
  | _ => decide

/-- The words outside every capture row are 0x11x (R92). -/
theorem decodeCapture_eq_error_iff : ∀ w : CaptureWord,
    decodeCapture w = .error (.noOperation (.capture w)) ↔ w &&& 0b10110 = 0b00110 := by decide

/-- Settles O4: each pattern is the row's own mask and pattern; a consumer row without ignored bits is
one word. -/
theorem operationMapPatterns : Obligations.OperationMapPatterns := by
  refine ⟨fun w => ?_, fun w => ?_⟩
  · simp [decodeCapture_eq_ok_iff, captureRows, decodeCapture_eq_error_iff]
  · have hall : w &&& 3#2 = w := BitVec.and_allOnes
    simp [decodeConsumer_eq_ok_iff, consumerRows, hall]

/-! ### Decode and encode -/

theorem decode_encodeWith (x : CaptureWord) (i : Instr) : decode (encodeWith x i) = .ok i := by
  revert x
  cases i with
  | _ => decide

/-- Settles O5: each word is one of the encoder's, for some value of its ignored bits. -/
theorem specWordsDecode : Obligations.SpecWordsDecode :=
  ⟨decode_encodeWith 0 .resetCapture, decode_encodeWith 0b01111 .resetCapture,
    decode_encodeWith 0b01000 .count, decode_encodeWith 0b01000 .ptick,
    decode_encodeWith 1 .start, decode_encodeWith 1 .rise,
    decode_encodeWith 1 .fallIdle, decode_encodeWith 1 .fallBit,
    decode_encodeWith 1 .resetConsumer, decode_encodeWith 0 .cidle, decode_encodeWith 0 .analyze⟩

/-- A word that matches a row is encoded back from its own bits. -/
theorem encodeWith_self_of_captureRow : ∀ w : CaptureWord, ∀ r ∈ captureRows,
    w &&& r.mask = r.pattern → encodeWith w r.op = .capture w := by decide

theorem encodeWith_self_of_consumerRow : ∀ w : ConsumerWord, ∀ r ∈ consumerRows,
    w &&& r.mask = r.pattern → encodeWith (w.setWidth 5) r.op = .consumer w := by decide

/-- Every word of an operation is among those the encoder gives for it. -/
theorem exists_eq_encodeWith {w : ControlWord} {i : Instr} (h : decode w = .ok i) :
    ∃ x, w = encodeWith x i := by
  cases w with
  | capture w =>
    obtain ⟨r, hr, hmatch, rfl⟩ := decodeCapture_eq_ok_iff.1 h
    exact ⟨w, (encodeWith_self_of_captureRow w r hr hmatch).symm⟩
  | consumer w =>
    obtain ⟨r, hr, hmatch, rfl⟩ := decodeConsumer_eq_ok_iff.1 h
    exact ⟨w.setWidth 5, (encodeWith_self_of_consumerRow w r hr hmatch).symm⟩

theorem wellFormed_encodeWith (x : CaptureWord) (i : Instr) :
    (encodeWith x i).wellFormed = true := by
  cases i with
  | resetCapture => exact Laws.EncodesWellFormed.resetCapture x
  | count => exact Laws.EncodesWellFormed.count x
  | ptick => exact Laws.EncodesWellFormed.ptick x
  | start => exact Laws.EncodesWellFormed.start x
  | rise => exact Laws.EncodesWellFormed.rise x
  | fallIdle => exact Laws.EncodesWellFormed.fallIdle x
  | fallBit => exact Laws.EncodesWellFormed.fallBit x
  | resetConsumer => exact Laws.EncodesWellFormed.resetConsumer x
  | cidle => exact Laws.EncodesWellFormed.cidle x
  | analyze => exact Laws.EncodesWellFormed.analyze x

/-- A capture word without RISE and FALL together, or with RST, matches a row (R92). -/
theorem exists_captureRow_of_wellFormed : ∀ w : CaptureWord,
    (ControlWord.capture w).wellFormed = true → ∃ r ∈ captureRows, w &&& r.mask = r.pattern := by
  decide

theorem exists_consumerRow : ∀ w : ConsumerWord,
    ∃ r ∈ consumerRows, w &&& r.mask = r.pattern := by decide

theorem exists_decode_of_wellFormed {w : ControlWord} (h : w.wellFormed = true) :
    ∃ i, decode w = .ok i := by
  cases w with
  | capture w =>
    obtain ⟨r, hr, hmatch⟩ := exists_captureRow_of_wellFormed w h
    exact ⟨r.op, decodeCapture_eq_ok_iff.2 ⟨r, hr, hmatch, rfl⟩⟩
  | consumer w =>
    obtain ⟨r, hr, hmatch⟩ := exists_consumerRow w
    exact ⟨r.op, decodeConsumer_eq_ok_iff.2 ⟨r, hr, hmatch, rfl⟩⟩

/-- Settles O6: a word that decodes is the encoder's with its own bits as the ignored ones, so it is
well formed, as every encoded word is. -/
theorem decodeAndEncodeAgree : Obligations.DecodeAndEncodeAgree := by
  refine ⟨fun i x => decode_encodeWith x i, fun w i => exists_eq_encodeWith,
    fun w => ⟨exists_decode_of_wellFormed, fun ⟨i, h⟩ => ?_⟩⟩
  obtain ⟨x, rfl⟩ := exists_eq_encodeWith h
  exact wellFormed_encodeWith x i

end Sys2Proof
end

section
namespace Sys2Proof.Machine

/-! ### The bits of a cycle's control words -/

theorem getLsbD_two_bools : ∀ a b : Bool,
    (BitVec.ofBool a ++ BitVec.ofBool b).getLsbD 1 = a ∧
    (BitVec.ofBool a ++ BitVec.ofBool b).getLsbD 0 = b := by decide

/-- Settles O2: KW is two levels side by side. -/
theorem consumerWordIsRstAndPend : Obligations.ConsumerWordIsRstAndPend :=
  fun s => getLsbD_two_bools s.rst s.pend

theorem getLsbD_five_bools (a b c d e : Bool) :
    let w := BitVec.ofBool a ++ BitVec.ofBool b ++ BitVec.ofBool c ++ BitVec.ofBool d ++
      BitVec.ofBool e
    w.getLsbD 4 = a ∧ w.getLsbD 3 = b ∧ w.getLsbD 2 = c ∧ w.getLsbD 1 = d ∧ w.getLsbD 0 = e := by
  revert a b c d e
  decide

theorem ovf_iff (s : State) : s.ovf = true ↔ s.tcnt = s.params.tmax := decide_eq_true_iff

/-- Settles O3: bit 0 is the comparator, true exactly at TMAX. -/
theorem captureWordBits : Obligations.CaptureWordBits := by
  intro s
  obtain ⟨hrst, hcapt, hrise, hfall, hovf⟩ :=
    getLsbD_five_bools s.rst s.capt s.riseEdge s.fallEdge s.ovf
  exact ⟨hrst, hcapt, hrise, hfall, (Bool.eq_iff_iff.1 hovf).trans (ovf_iff s)⟩

end Sys2Proof.Machine
end

section
/-! PROOFS. Where a step is refused (O13, O14), the fields of a frame word (O20), and the header's
classification (O23). -/

namespace Sys2Proof.Machine

/-! ### Refusals -/

/-- Settles O13: of the refusals a step answers with, none is for want of an operation. -/
theorem noCycleFormsAWordWithoutOperation : Obligations.NoCycleFormsAWordWithoutOperation := by
  intro s e h
  obtain ⟨-, hs⟩ | ⟨-, -, hs⟩ | ⟨-, -, -, hs⟩ | ⟨-, -, -, -, hs⟩ | ⟨-, -, hs⟩ := step_cases s
  all_goals exact nomatch h.symm.trans hs

theorem refusal_of_not_legal {s : State} (hl : s.params.legal = false) :
    s.refusal = some (.illegalConfiguration s.params.failedChecks) := if_pos hl

theorem refusal_of_not_hasReset {s : State} (hl : s.params.legal = true)
    (hr : s.hasReset = false) : s.refusal = some .beforeFirstReset := by
  rw [State.refusal, if_neg (by simp [hl]), if_pos hr]

theorem refusal_of_not_inv {s : State} (hl : s.params.legal = true) (hr : s.hasReset = true)
    (hi : ¬ s.Inv) : s.refusal = some .unreachableState := by
  rw [State.refusal, if_neg (by simp [hl]), if_neg (by simp [hr]), if_neg hi]

/-- Settles O14: without reset the one refusal of both operations is the step's. -/
theorem refusalsOfACycleWithoutReset : Obligations.RefusalsOfACycleWithoutReset :=
  fun _ h => ⟨fun hl => step_of_refusal h (refusal_of_not_legal hl),
    fun hl hr => step_of_refusal h (refusal_of_not_hasReset hl hr),
    fun hl hr hi => step_of_refusal h (refusal_of_not_inv hl hr hi)⟩

/-! ### The fields of a frame word -/

/-- A read inside the bits just written gives that part of the value written (R61, R62). -/
theorem readBits_writeBits_part (m : FsetBits) {a n i k : Nat} (v : BitVec n) (h : a + n ≤ 39)
    (hk : i + k ≤ n) : readBits (writeBits m a n v) (a + i) k = v.extractLsb' i k := by
  refine BitVec.eq_of_getLsbD_eq fun j hj => ?_
  rw [getLsbD_readBits, getLsbD_writeBits m a n v h, if_pos (by omega), BitVec.getLsbD_extractLsb',
    show a + i + j - a = i + j by omega]

theorem headerField_eq (s : State) {k : Nat} (h : k < 3) :
    s.headerField k = .ok (readBits s.fset (13 * k + 12) 1) :=
  memRead_inFrame _ (by rw [inFrame_iff]; omega)

theorem packFrame_header (h : Bool) (a : AddressField) (d : Nibble) :
    (packFrame h a d).extractLsb' 12 1 = BitVec.ofBool h :=
  (BitVec.extractLsb'_append_eq_of_le (by decide)).trans BitVec.extractLsb'_append_eq_left

theorem packFrame_address (h : Bool) (a : AddressField) (d : Nibble) :
    (packFrame h a d).extractLsb' 4 8 = a :=
  (BitVec.extractLsb'_append_eq_of_le (by decide)).trans BitVec.extractLsb'_append_eq_right

theorem packFrame_data (h : Bool) (a : AddressField) (d : Nibble) :
    (packFrame h a d).extractLsb' 0 4 = d := BitVec.extractLsb'_append_eq_right

theorem packFrame_toNat (h : Bool) (a : AddressField) (d : Nibble) :
    (packFrame h a d).toNat = h.toNat * 2 ^ 12 + a.toNat * 2 ^ 4 + d.toNat := by
  rw [packFrame, BitVec.toNat_append, BitVec.toNat_append, BitVec.toNat_ofBool,
    ← Nat.shiftLeft_add_eq_or_of_lt a.isLt, ← Nat.shiftLeft_add_eq_or_of_lt d.isLt,
    Nat.shiftLeft_eq, Nat.shiftLeft_eq]
  omega

/-- Settles O20: each field is a read inside the frame just written. -/
theorem frameWordFields : Obligations.FrameWordFields := by
  intro s k h a d m hk hm
  have hin : inFrame (13 * k) 13 = true := by rw [inFrame_iff]; omega
  have hbound := inFrame_bound hin
  obtain rfl := Except.ok.inj ((memWrite_inFrame s.fset (packFrame h a d) hin).symm.trans hm)
  refine ⟨?_, ?_, ?_, packFrame_toNat h a d⟩
  · rw [addressField_eq _ hk, readBits_writeBits_part _ _ hbound (by decide), packFrame_address]
  · rw [headerField_eq _ hk, readBits_writeBits_part _ _ hbound (by decide), packFrame_header]
  · rintro rfl
    rw [dataField_eq]
    exact congrArg Except.ok
      ((readBits_writeBits_part (i := 0) _ _ hbound (by decide)).trans (packFrame_data h a d))

/-! ### The classifier with the sentinel -/

/-- With the sentinel the low phase plays no part (R143). -/
theorem classify_sentinel (p : Params) (l h : Nat) :
    classify p l h true = if p.inS h then .one else if p.inL h then .zero else .invalid := by
  simp [classify]

/-- Settles O23: a header is a symbol with the sentinel. -/
theorem headerIsDecidedByItsHighPhase : Obligations.HeaderIsDecidedByItsHighPhase := by
  intro s hb
  have hs : s.symbol = classify s.params s.lowd s.tcnt true := by
    simp [State.symbol, State.sentinel, hb, State.lowDuration, State.highDuration]
  rw [hs, classify_sentinel]
  cases s.params.inS s.tcnt
  · cases s.params.inL s.tcnt <;> simp
  · simp

end Sys2Proof.Machine
end

section
/-! PROOFS. A whole symbol, edge to edge (O60): a held line, a phase up to its edge, the two edges of a
symbol, and the state in the cycle that decides it. -/

namespace Sys2Proof.Machine

/-! ### The cycle of each kind, with no analysis pending -/

/-- Nothing is pending while Capturing (INV2). -/
theorem pend_eq_false_of_capt {s : State} (h : s.Ready) (hc : s.capt = true) : s.pend = false := by
  obtain ⟨-, -, -, hinv2, -⟩ := h
  exact Bool.eq_false_iff.2 fun hp => Bool.false_ne_true ((hinv2 hp).symm.trans hc)

/-- With nothing pending a cycle without reset is the capture agent's, and ends a change pulse. -/
theorem cycleAfter_of_not_pend {s : State} (hp : s.pend = false) :
    s.cycleAfter = { s.captureAfter with data := s.data, chg := false }.endCycle := by
  simp [State.cycleAfter, hp]

/-- `n` cycles of a held line with no overflow on the way and nothing pending. -/
def State.counted (s : State) (n : Nat) : State :=
  { s with
    tcnt := s.tcnt + n
    chg := s.chg && n == 0
    stimulus := s.stimulus.drop n
    cycle := s.cycle + n }

theorem counted_zero (s : State) : s.counted 0 = s := by
  simp [State.counted]

theorem counted_one_add (s : State) (n : Nat) : (s.counted 1).counted n = s.counted (n + 1) := by
  simp [State.counted, Nat.add_assoc, Nat.add_comm 1]

theorem ready_counted {s : State} {n : Nat} (h : s.Ready) (ht : s.tcnt + n ≤ s.params.tmax) :
    (s.counted n).Ready := by
  obtain ⟨hlegal, hreset, h1, h2, h3, h4, h6, h7, -, hlowd⟩ := h
  exact ⟨hlegal, hreset, h1, h2, h3, h4, h6, h7, ht, hlowd⟩

theorem edges_eq_false_of_held {s : State} (h : s.din = s.dinq) :
    s.riseEdge = false ∧ s.fallEdge = false := by
  simp [State.riseEdge, State.fallEdge, h]

/-- A cycle without an edge or an overflow adds one tick (R121). -/
theorem cycleAfter_of_held {s : State} (hp : s.pend = false) (hd : s.din = s.dinq)
    (ht : s.tcnt < s.params.tmax) : s.cycleAfter = s.counted 1 := by
  obtain ⟨hu, hf⟩ := edges_eq_false_of_held hd
  have ho : s.ovf = false := decide_eq_false ht.ne
  have hmod : (s.tcnt + 1) % 2 ^ s.params.tw = s.tcnt + 1 :=
    Nat.mod_eq_of_lt (by rw [Params.tmax] at ht; omega)
  rw [cycleAfter_of_not_pend hp]
  simp [State.captureAfter, State.prologue, State.endCycle, State.counted, State.edge, hu, hf, ho,
    hd, hmod]

/-- A run of a held line begins with its counted cycles, as long as TCNT does not overflow. -/
theorem runs_held_iff {n m : Nat} {t : State} : ∀ {s : State}, s.Ready → s.pend = false →
    s.Holds n → s.tcnt + n ≤ s.params.tmax → (Runs (n + m) s t ↔ Runs m (s.counted n) t) := by
  induction n with
  | zero => intro s _ _ _ _; rw [counted_zero, Nat.zero_add]
  | succ n ih =>
    intro s h hp hh ht
    obtain ⟨hr, hd, -⟩ := pins_of_holds hh
    have he : s.cycleAfter = s.counted 1 := cycleAfter_of_held hp hd (by omega)
    have hholds : (s.counted 1).Holds n := he ▸ (holds_cycleAfter hh).1
    have htcnt : s.tcnt + 1 + n ≤ s.params.tmax := by omega
    rw [Nat.succ_add, runs_succ_iff h hr, he, ← counted_one_add s n]
    exact ih (ready_counted h (by omega)) hp hholds htcnt

/-! ### One phase of the line -/

/-- The pins of the cycle about to run are without reset, at the level `d`, with `q` after them. -/
def State.Feeds (s : State) (d : Bool) (q : List Pins) : Prop :=
  s.stimulus = { rst := false, din := d } :: q

theorem State.Feeds.rst {s : State} {d : Bool} {q : List Pins} (h : s.Feeds d q) :
    s.rst = false := by
  rw [State.rst, State.pins, h]

theorem State.Feeds.din {s : State} {d : Bool} {q : List Pins} (h : s.Feeds d q) :
    s.din = d := by
  rw [State.din, State.pins, h]

/-- The pins of a phase at the level of DINQ, held for `n` cycles, then the edge, then `q`. -/
def State.Phase (s : State) (n : Nat) (q : List Pins) : Prop :=
  s.stimulus = List.replicate n { rst := false, din := s.dinq } ++
    { rst := false, din := !s.dinq } :: q

theorem holds_of_phase {s : State} {n : Nat} {q : List Pins} (h : s.Phase n q) : s.Holds n := by
  rw [State.Holds, h, List.take_left' (List.length_replicate ..)]

theorem feeds_counted_of_phase {s : State} {n : Nat} {q : List Pins} (h : s.Phase n q) :
    (s.counted n).Feeds (!s.dinq) q := by
  rw [State.Feeds, State.counted, h, List.drop_left' (List.length_replicate ..)]

/-- A phase of `n + 1` cycles since the edge that began it: the line is held for `n` of them, and the
next cycle has the edge that ends it (R125). -/
theorem runs_phase_iff {s t : State} {n m : Nat} {q : List Pins} (h : s.Ready) (hp : s.pend = false)
    (ht : s.tcnt + n ≤ s.params.tmax) (hq : s.Phase n q) :
    Runs (n + 1 + m) s t ↔ Runs m (s.counted n).cycleAfter t := by
  rw [Nat.add_assoc, Nat.add_comm 1, runs_held_iff h hp (holds_of_phase hq) ht,
    runs_succ_iff (ready_counted h ht) (feeds_counted_of_phase hq).rst]

/-! ### The two edges of a symbol -/

/-- What the rising edge while Capturing leaves (R123). -/
def State.risen (s : State) : State :=
  { s with dinq := true, tcnt := 1, lowd := s.tcnt, chg := false }.endCycle

theorem cycleAfter_of_rise {s : State} (hp : s.pend = false) (hc : s.capt = true)
    (hd : s.dinq = false) (hdin : s.din = true) : s.cycleAfter = s.risen := by
  have hu : s.riseEdge = true := by simp [State.riseEdge, hd, hdin]
  rw [cycleAfter_of_not_pend hp]
  simp [State.captureAfter, State.prologue, State.risen, hu, hc, hdin, edge_of_riseEdge hu]

theorem riseEdge_eq_false_of_fallEdge {s : State} (h : s.fallEdge = true) : s.riseEdge = false := by
  simpa [h] using not_rise_and_fall s

/-- An Invalid symbol is a full reset (R156). -/
theorem cycleAfter_of_malformed {s : State} (hp : s.pend = false) (h : s.Malformed) :
    s.cycleAfter = { s.prologue.aborted with chg := false }.endCycle := by
  obtain ⟨hf, hc, hs⟩ := h
  have he : s.captureAfter = s.prologue.aborted := by
    simp [State.captureAfter, riseEdge_eq_false_of_fallEdge hf, hf, hc, hs]
  rw [cycleAfter_of_not_pend hp, he]
  rfl

/-- A One or a Zero is stored (R153 to R155). -/
theorem captureAfter_of_symbol {s : State} {b : Bool} (hf : s.fallEdge = true) (hc : s.capt = true)
    (hs : s.symbol = if b then .one else .zero) : s.captureAfter = s.stored b := by
  unfold State.captureAfter
  rw [if_neg (by simp [riseEdge_eq_false_of_fallEdge hf]), if_pos hf, if_pos hc, hs]
  cases b
  · rfl
  · rfl

theorem cycleAfter_of_symbol {s : State} {b : Bool} (hp : s.pend = false) (hf : s.fallEdge = true)
    (hc : s.capt = true) (hs : s.symbol = if b then .one else .zero) :
    s.cycleAfter = { s.stored b with data := s.data, chg := false }.endCycle := by
  rw [cycleAfter_of_not_pend hp, captureAfter_of_symbol hf hc hs]

/-- The advance writes the capture state and PEND only. -/
theorem advanceCapture_keeps (s t : State) : (advanceCapture s t).tcnt = t.tcnt ∧
    (advanceCapture s t).fset = t.fset ∧ (advanceCapture s t).inact = t.inact := by
  unfold advanceCapture
  split
  · exact ⟨rfl, rfl, rfl⟩
  · split
    · exact ⟨rfl, rfl, rfl⟩
    · exact ⟨rfl, rfl, rfl⟩

/-- What a stored symbol leaves of the timer, FSET and INACT (R153). -/
theorem stored_registers (s : State) (b : Bool) : (s.stored b).tcnt = s.prologue.tcnt ∧
    (s.stored b).fset = writeBits s.fset s.symbolAddress 1 (BitVec.ofBool b) ∧
    (s.stored b).inact = 0 :=
  advanceCapture_keeps s (s.withSymbol b)

/-- TCNT is the prologue's, whatever the capture operation (R120). -/
theorem CaptureCase.tcnt {s t : State} (h : CaptureCase s t) : t.tcnt = s.prologue.tcnt := by
  cases h with
  | timer => rfl
  | start => rfl
  | store b =>
    obtain ⟨htcnt, -⟩ := stored_registers s b
    exact htcnt
  | abort => rfl

/-- A stored symbol is one bit of FSET (R62, R153). -/
theorem getLsbD_stored_fset {s : State} (h : s.Inv3) (b : Bool) (a : Nat) :
    (s.stored b).fset.getLsbD a = if a = s.symbolAddress then b else s.fset.getLsbD a := by
  obtain ⟨-, hfset, -⟩ := stored_registers s b
  rw [hfset, getLsbD_writeBits _ _ _ _ (inFrame_bound (inFrame_symbolAddress h))]
  by_cases ha : a = s.symbolAddress
  · simp [ha]
  · rw [if_neg (by omega), if_neg ha]

/-- Where the capture goes after a stored symbol: the next symbol, the next frame, or the analysis. -/
theorem stored_advance {s : State} (h : s.Inv3) (hc : s.capt = true) (b : Bool) :
    (s.bidx.toNat < 12 → (s.stored b).capt = true ∧ (s.stored b).fidx = s.fidx ∧
      (s.stored b).bidx.toNat = s.bidx.toNat + 1) ∧
    (s.bidx = 12 → s.fidx.toNat < 2 → (s.stored b).capt = true ∧
      (s.stored b).fidx.toNat = s.fidx.toNat + 1 ∧ (s.stored b).bidx = 0) ∧
    (s.bidx = 12 → s.fidx = 2 → (s.stored b).capt = false ∧ (s.stored b).pend = true) := by
  obtain ⟨hb, hb', e⟩ | ⟨hb, hf, hf', e⟩ | ⟨hb, hf, e⟩ := stored_cases h b
  · have hne : s.bidx ≠ 12 := by bv_omega
    rw [e]
    exact ⟨fun _ => ⟨hc, rfl, hb'⟩, fun h12 => absurd h12 hne, fun h12 => absurd h12 hne⟩
  · have hne : s.fidx ≠ 2 := by bv_omega
    rw [e]
    exact ⟨fun hlt => absurd hlt (by omega), fun _ _ => ⟨rfl, hf', rfl⟩,
      fun _ h2 => absurd h2 hne⟩
  · rw [e, hb, hf]
    exact ⟨fun hlt => absurd hlt (by decide), fun _ hlt => absurd hlt (by decide),
      fun _ _ => ⟨rfl, rfl⟩⟩

/-! ### From edge to edge -/

/-- The state in the cycle of the falling edge that ends a symbol, whose low phase began right before
`s` and has `l + 1` cycles, and whose high phase has `h + 1`. -/
def State.symbolEnd (s : State) (l h : Nat) : State := (s.counted l).risen.counted h

section
variable {s : State} {l h : Nat} {rest : List Pins}

theorem runs_symbol (hs : s.Ready) (hc : s.capt = true) (hd : s.dinq = false) (ht : s.tcnt = 1)
    (hl : l + 1 ≤ s.params.tmax) (hh : h + 1 ≤ s.params.tmax)
    (hq : s.stimulus = List.replicate l { rst := false, din := false } ++
      (List.replicate (h + 1) { rst := false, din := true } ++
        { rst := false, din := false } :: rest)) :
    (s.symbolEnd l h).Ready ∧ (s.symbolEnd l h).Feeds false rest ∧
      Runs (l + 1 + (h + 1)) s (s.symbolEnd l h).cycleAfter := by
  have hp : s.pend = false := pend_eq_false_of_capt hs hc
  have hlow : s.Phase l (List.replicate h { rst := false, din := true } ++
      { rst := false, din := false } :: rest) := by
    rw [State.Phase, hq, hd, List.replicate_succ]
    rfl
  have htl : s.tcnt + l ≤ s.params.tmax := by omega
  have hrise : (s.counted l).cycleAfter = (s.counted l).risen :=
    cycleAfter_of_rise hp hc hd ((feeds_counted_of_phase hlow).din.trans (by rw [hd]; rfl))
  have hready : (s.counted l).risen.Ready := hrise ▸ ready_cycleAfter (ready_counted hs htl)
  have hhigh : (s.counted l).risen.Phase h rest :=
    congrArg List.tail (feeds_counted_of_phase hlow)
  have hth : (s.counted l).risen.tcnt + h ≤ s.params.tmax := (Nat.add_comm 1 h).trans_le hh
  refine ⟨ready_counted hready hth, feeds_counted_of_phase hhigh, ?_⟩
  rw [runs_phase_iff hs hp htl hlow, hrise]
  exact (runs_phase_iff (m := 0) hready hp hth hhigh).2 rfl

theorem symbolEnd_symbol (ht : s.tcnt = 1) :
    (s.symbolEnd l h).symbol = classify s.params (l + 1) (h + 1) (s.bidx == 0) := by
  have hlow : (s.symbolEnd l h).lowDuration = l + 1 :=
    (congrArg (· + l) ht).trans (Nat.add_comm 1 l)
  have hhigh : (s.symbolEnd l h).highDuration = h + 1 := Nat.add_comm 1 h
  rw [State.symbol, hlow, hhigh]
  rfl

end

/-- What the cycle of a falling edge leaves of the pins and the timer (R120). -/
theorem cycleAfter_timer_of_fall {u : State} (hf : u.fallEdge = true) :
    u.cycleAfter.stimulus = u.stimulus.tail ∧ u.cycleAfter.dinq = u.din ∧
      u.cycleAfter.tcnt = 1 := by
  obtain ⟨-, -, hstim, -, hdinq⟩ := captureAfter_keeps u
  refine ⟨congrArg List.tail hstim, hdinq, (captureAfter_case u).tcnt.trans ?_⟩
  rw [State.prologue_tcnt, if_pos (edge_of_fallEdge hf)]

/-- Settles O60: in the cycle of the second falling edge LOWD and TCNT hold the lengths of the two
phases, and that cycle is the FALL_BIT of the symbol they make. -/
theorem aWholeSymbolIsReceived : Obligations.AWholeSymbolIsReceived := by
  intro s l h rest hs hc hd ht hl1 hl hh1 hh hq
  obtain ⟨l, rfl⟩ := Nat.exists_eq_add_of_le' hl1
  obtain ⟨h, rfl⟩ := Nat.exists_eq_add_of_le' hh1
  obtain ⟨hready, hfeeds, hruns⟩ := runs_symbol hs hc hd ht hl hh hq
  have hp : (s.symbolEnd l h).pend = false := pend_eq_false_of_capt hready hc
  have hf : (s.symbolEnd l h).fallEdge = true := by
    rw [State.fallEdge, hfeeds.din]
    rfl
  obtain ⟨hstim, hdinq, htcnt⟩ := cycleAfter_timer_of_fall hf
  rw [← symbolEnd_symbol ht]
  refine ⟨_, hruns, hstim.trans (congrArg List.tail hfeeds), hdinq.trans hfeeds.din, htcnt,
    fun hsym => ?_, fun b hsym => ?_⟩
  · rw [cycleAfter_of_malformed hp ⟨hf, hc, hsym⟩]
    exact ⟨rfl, rfl, rfl, rfl, rfl, rfl⟩
  · obtain ⟨-, -, -, -, hinv3, -⟩ := hready
    obtain ⟨hnext, hframe, hset⟩ := stored_advance hinv3 hc b
    obtain ⟨-, -, hinact⟩ := stored_registers (s.symbolEnd l h) b
    rw [cycleAfter_of_symbol hp hf hc hsym]
    exact ⟨(getLsbD_stored_fset hinv3 b _).trans (if_pos rfl),
      fun a ha => (getLsbD_stored_fset hinv3 b a).trans (if_neg ha),
      hinact, advanceCapture_valid _ _, rfl, hnext, hframe, hset⟩

end Sys2Proof.Machine
end

section
/-! PROOFS. The tolerance model: the derived bounds (O17) and the checks of a configuration (O15). -/

namespace Sys2Proof.Machine

/-! ### The bounds of each form of the windows -/

theorem bounds_of_direct {p : Params} {b : Bounds} (hw : p.windows = .direct b) : p.bounds = b := by
  rw [Params.bounds, hw]

theorem bounds_of_derived {p : Params} {fTick fOsc tol : Nat}
    (hw : p.windows = .derived fTick fOsc tol) : p.bounds = derivedBounds fTick fOsc tol := by
  rw [Params.bounds, hw]

/-- Up to 100 percent the tolerance is at most the nominal length, so that the minimum of R113 is a true
difference. -/
theorem toleranceTicks_le {tol : Nat} (nominal : Nat) (h : tol ≤ 100) :
    toleranceTicks nominal tol ≤ nominal :=
  Nat.div_le_of_le_mul ((Nat.mul_comm nominal tol).trans_le (Nat.mul_le_mul_right nominal h))

/-- Settles O17: the bounds are those of the derived form, and no subtraction goes below 0. -/
theorem derivedWindows : Obligations.DerivedWindows := by
  intro p fTick fOsc tol hw htol short long
  rw [bounds_of_derived hw]
  exact ⟨Nat.sub_add_cancel (toleranceTicks_le short htol), rfl,
    Nat.sub_add_cancel (toleranceTicks_le long htol), rfl⟩

/-! ### The elaboration checks -/

/-- What the checks F_TICK_POS, F_OSC_RANGE and TOL_RANGE say of the derived form (R114). -/
theorem derived_ranges_of_legal {p : Params} (h : p.legal = true) {fTick fOsc tol : Nat}
    (hw : p.windows = .derived fTick fOsc tol) : 0 < fTick ∧ 2000 < fOsc ∧ tol ≤ 100 := by
  have hpass := p.legal_iff.1 h
  have hfTick := hpass .fTickPos
  have hfOsc := hpass .fOscRange
  have htol := hpass .tolRange
  simp only [Params.passes, hw] at hfTick hfOsc htol
  exact ⟨of_decide_eq_true hfTick, of_decide_eq_true hfOsc, of_decide_eq_true htol⟩

/-- With the window bounds given directly the checks of the derived form hold, and of WINDOW_RANGE the two
maxima are enough, as each minimum lies below its maximum (R246). That SHORT and LONG are disjoint is no
check (decision D22). -/
theorem legal_of_direct {p : Params} {b : Bounds} (haddr : p.addr ≤ 255) (htw : 2 ≤ p.tw)
    (hw : p.windows = .direct b) (hshort : b.shortMin < b.shortMax) (hlong : b.longMin < b.longMax)
    (hshortMax : b.shortMax ≤ p.tmax) (hlongMax : b.longMax ≤ p.tmax) : p.legal = true := by
  refine p.legal_iff.2 fun c => ?_
  cases c with
  | addrRange => exact decide_eq_true haddr
  | twMin => exact decide_eq_true htw
  | shortOrder => rw [Params.passes, bounds_of_direct hw]; exact decide_eq_true hshort
  | longOrder => rw [Params.passes, bounds_of_direct hw]; exact decide_eq_true hlong
  | windowRange =>
    rw [Params.passes, bounds_of_direct hw]
    exact decide_eq_true ⟨hshort.le.trans hshortMax, hshortMax, hlong.le.trans hlongMax, hlongMax⟩
  | fTickPos | fOscRange | tolRange => rw [Params.passes, hw]

/-- A step needs a legal configuration, whatever the pins, a reset cycle included (log entry 9). -/
theorem step_of_not_legal {s : State} (h : s.params.legal = false) :
    step s = .refused (.illegalConfiguration s.params.failedChecks) := by
  have hne : s.params.legal ≠ true := ne_true_of_eq_false h
  obtain ⟨-, hs⟩ | ⟨hl, -⟩ | ⟨hl, -⟩ | ⟨hl, -⟩ | ⟨⟨hl, -⟩, -⟩ := step_cases s
  · exact hs
  all_goals exact absurd hl hne

/-- Settles O15: each check is one range of a legal configuration, a step has one, and in the direct form
the ranges written are enough. -/
theorem windowLegality : Obligations.WindowLegality := by
  refine ⟨fun p h => ?_, fun _ => step_of_not_legal, fun _ haddr htw _ => legal_of_direct haddr htw⟩
  have hpass := p.legal_iff.1 h
  obtain ⟨hsmin, hsmax, hlmin, hlmax⟩ := of_decide_eq_true (hpass .windowRange)
  exact ⟨of_decide_eq_true (hpass .addrRange), two_le_tw_of_legal h, Params.shortMin_lt_shortMax h,
    Params.longMin_lt_longMax h, hsmin, hsmax, hlmin, hlmax, fun _ _ _ => derived_ranges_of_legal h⟩

end Sys2Proof.Machine
end

section
/-! PROOFS. The edge timer: the prologue with and without an edge, and the operations COUNT (O26), PTICK
(O27), RISE (O28), FALL_IDLE (O29) and START (O33) as whole next states. -/

namespace Sys2Proof.Machine

/-! ### The prologue -/

theorem edge_iff (s : State) : s.edge = true ↔ s.dinq ≠ s.din := by
  rw [State.edge, State.riseEdge, State.fallEdge]
  generalize s.dinq = q, s.din = d
  revert q d
  decide

theorem edge_eq_false_iff (s : State) : s.edge = false ↔ s.dinq = s.din := by
  rw [Bool.eq_false_iff, ne_eq, edge_iff, not_not]

/-- The prologue of a cycle with an edge: the count restarts at 1 (decision D4). -/
theorem prologue_of_edge {s : State} (h : s.dinq ≠ s.din) :
    s.prologue = { s with dinq := s.din, tcnt := 1 } := by
  rw [State.prologue, if_pos ((edge_iff s).2 h)]

/-- The prologue of a cycle without an edge: one tick more, modulo 2^P_TW. -/
theorem prologue_of_no_edge {s : State} (h : s.dinq = s.din) :
    s.prologue = { s with tcnt := (s.tcnt + 1) % 2 ^ s.params.tw } := by
  rw [State.prologue, (edge_eq_false_iff s).2 h, ← h]
  rfl

theorem tmax_add_one (p : Params) : p.tmax + 1 = 2 ^ p.tw :=
  Nat.sub_add_cancel Nat.one_le_two_pow

/-- Below TMAX the next tick does not wrap. -/
theorem prologue_of_no_overflow {s : State} (h : s.dinq = s.din) (ht : s.tcnt < s.params.tmax) :
    s.prologue = { s with tcnt := s.tcnt + 1 } := by
  rw [prologue_of_no_edge h, Nat.mod_eq_of_lt (tmax_add_one s.params ▸ Nat.succ_lt_succ ht)]

/-- At TMAX it wraps to 0. -/
theorem prologue_of_overflow {s : State} (h : s.dinq = s.din) (ht : s.tcnt = s.params.tmax) :
    s.prologue = { s with tcnt := 0 } := by
  rw [prologue_of_no_edge h, ht, tmax_add_one, Nat.mod_self]

/-! ### The timer operations and START -/

/-- From a Ready state an operation other than RESET answers what its effect leaves. -/
theorem exec_of_effect {i : Instr} {s : State} {x : Effect} (h : s.Ready) (hc : i ≠ .resetCapture)
    (hk : i ≠ .resetConsumer) (he : effectOf i s = .ok x) : exec i s = .next x.after := by
  rw [exec_eq_conclude s hc hk, refusal_of_ready h, he, conclude_none_ok]

theorem decodeCapture_eq_count_iff : ∀ w : CaptureWord,
    decodeCapture w = .ok .count ↔ w = 0b00000 ∨ w = 0b01000 := by decide

/-- Settles O26: COUNT is the prologue, which does not wrap below TMAX. -/
theorem countAddsOneTick : Obligations.CountAddsOneTick := by
  refine ⟨decodeCapture_eq_count_iff, fun s h hd ht => ?_⟩
  rw [exec_of_effect h (by decide) (by decide) rfl, prologue_of_no_overflow hd ht]

/-- The periodic tick that finds INACT at P_TIMEOUT is the full reset (R122, R171). -/
theorem exec_ptick_of_timeout {s : State} (h : s.Ready) (hp : s.pend = false)
    (hi : s.inact = s.params.timeout) : exec .ptick s = .next s.prologue.aborted := by
  have he : effectOf .ptick s =
      .ok { after := s.prologue.aborted, cause := .inactivityTimeout } := by
    simp [effectOf, ptickEffect, hp, hi, State.aborted]
  exact exec_of_effect h (by decide) (by decide) he

/-- Any other periodic tick with nothing pending is counted (R122). -/
theorem exec_ptick_of_counted {s : State} (h : s.Ready) (hp : s.pend = false)
    (hi : s.inact ≠ s.params.timeout) :
    exec .ptick s = .next { s.prologue with inact := s.inact + 1 } := by
  have he : effectOf .ptick s = quiet { s.prologue with inact := s.inact + 1 } := by
    simp [effectOf, ptickEffect, hp, hi]
  exact exec_of_effect h (by decide) (by decide) he

/-- Settles O27: the three cases of PTICK, over a prologue that wraps to 0. -/
theorem ptickCountsOrTimesOut : Obligations.PtickCountsOrTimesOut := by
  intro s h hd ht
  have hwrap : s.prologue = { s with tcnt := 0 } := prologue_of_overflow hd ht
  refine ⟨fun hp => ?_, fun hp hi => ?_, fun hp hi => ?_⟩
  · rw [exec_ptick_of_pend h hp, hwrap]
  · rw [exec_ptick_of_timeout h hp hi, hwrap]
    rfl
  · rw [exec_ptick_of_counted h hp hi, hwrap]

/-- Settles O28: LOWD takes TCNT as it was before the prologue restarts it. -/
theorem riseRecordsTheLowPhase : Obligations.RiseRecordsTheLowPhase := by
  intro s h hq hd
  rw [exec_of_effect h (by decide) (by decide) rfl, prologue_of_edge (by simp [hq, hd]), hd]

/-- Settles O29: FALL_IDLE is the prologue of a cycle with an edge. -/
theorem fallIdleRestartsTheCount : Obligations.FallIdleRestartsTheCount := by
  intro s h hq hd
  rw [exec_of_effect h (by decide) (by decide) rfl, prologue_of_edge (by simp [hq, hd]), hd]

/-- Settles O33: the one write to FSET is frame 0, with 0. -/
theorem startOpensACapture : Obligations.StartOpensACapture := by
  intro s h _ hq hd
  refine ⟨writeBits s.fset 0 13 0, fun a => ?_, ?_⟩
  · rw [getLsbD_writeBits _ _ _ _ (by decide)]
    simp
  · rw [exec_of_effect (i := .start) h (by decide) (by decide) rfl,
      prologue_of_edge (by simp [hq, hd]), hd]
    rfl

end Sys2Proof.Machine
end

section
/-! PROOFS. The timer registers over a whole cycle (O25, O30), and a pending analysis, which meets no
periodic tick (O10). -/

namespace Sys2Proof.Machine

/-! ### DINQ, TCNT, LOWD and INACT after a cycle -/

/-- DINQ and TCNT after a cycle are the prologue's, whatever the two operations (R120). -/
theorem cycleAfter_timer (s : State) :
    s.cycleAfter.dinq = s.din ∧ s.cycleAfter.tcnt = s.prologue.tcnt := by
  obtain ⟨-, -, -, -, hdinq⟩ := captureAfter_keeps s
  exact ⟨hdinq, (captureAfter_case s).tcnt⟩

@[simp] theorem advanceCapture_lowd (s t : State) : (advanceCapture s t).lowd = t.lowd := by
  unfold advanceCapture
  split
  · rfl
  · split <;> rfl

/-- LOWD takes TCNT at a rising edge, whatever CAPT, and at nothing else (R123, R150). -/
theorem captureAfter_lowd (s : State) :
    s.captureAfter.lowd = if s.riseEdge then s.tcnt else s.lowd := by
  unfold State.captureAfter
  split
  · split <;> rfl
  · repeat' split
    all_goals simp [State.aborted]

theorem riseEdge_iff (s : State) : s.riseEdge = true ↔ s.dinq = false ∧ s.din = true := by
  simp [State.riseEdge]

/-- Settles O25: the prologue's two registers, and LOWD. -/
theorem timerPrologueInEveryCycle : Obligations.TimerPrologueInEveryCycle := by
  intro s h hr
  obtain ⟨hdinq, htcnt⟩ := cycleAfter_timer s
  refine ⟨_, step_of_ready h hr, hdinq, ?_, ?_⟩
  · simp only [htcnt, State.prologue_tcnt, edge_iff]
  · simp only [← riseEdge_iff]
    exact captureAfter_lowd s

/-- An edge counts no tick: INACT is kept, or cleared by START, a stored symbol or an abort (R129). -/
theorem captureAfter_inact_of_edge {s : State} (h : s.edge = true) :
    s.captureAfter.inact = s.inact ∨ s.captureAfter.inact = 0 := by
  unfold State.captureAfter
  cases hu : s.riseEdge
  case true =>
    cases s.capt
    · exact .inr rfl
    · exact .inl rfl
  case false =>
    have hf : s.fallEdge = true := by simpa [State.edge, hu] using h
    rw [if_neg Bool.false_ne_true, if_pos hf]
    cases s.capt
    · exact .inl rfl
    · cases s.symbol
      · obtain ⟨-, -, hinact⟩ := stored_registers s true
        exact .inr hinact
      · obtain ⟨-, -, hinact⟩ := stored_registers s false
        exact .inr hinact
      · exact .inr rfl

/-- A cycle is a PTICK exactly without reset, without an edge and with the overflow (R89, R129). -/
theorem captureOp_eq_ptick_iff (s : State) :
    s.captureOp = .ok .ptick ↔ s.rst = false ∧ s.edge = false ∧ s.ovf = true := by
  rw [captureOp_eq, State.edge]
  generalize s.rst = r, s.capt = c, s.riseEdge = u, s.fallEdge = d, s.ovf = o
  revert r c u d o
  decide

/-- Settles O30: the edge restarts the count and shuts out the periodic tick. -/
theorem anEdgeBeatsTheOverflow : Obligations.AnEdgeBeatsTheOverflow := by
  intro s h hr hd _
  have he : s.edge = true := (edge_iff s).2 hd
  obtain ⟨-, htcnt⟩ := cycleAfter_timer s
  refine ⟨fun hop => ?_, _, step_of_ready h hr, ?_, captureAfter_inact_of_edge he⟩
  · obtain ⟨-, hne, -⟩ := (captureOp_eq_ptick_iff s).1 hop
    exact Bool.false_ne_true (hne.symm.trans he)
  · rw [htcnt, prologue_of_edge hd]

/-! ### A pending analysis -/

/-- The symbol that completes a set clears INACT (R155). -/
theorem CaptureCase.inact_of_completesSet {s t : State} (h : CaptureCase s t)
    (hs : s.CompletesSet) : t.inact = 0 := by
  cases h with
  | timer _ _ _ _ _ _ hn => exact absurd hs hn
  | start => rfl
  | store b =>
    obtain ⟨-, -, hinact⟩ := stored_registers s b
    exact hinact
  | abort => rfl

/-- PEND is set only by the falling edge of a completed set, which restarts the timer (R155). -/
theorem pendFresh_cycleAfter {s : State} (h : s.Ready) : s.cycleAfter.PendFresh := by
  intro hpend
  have ⟨_, _, _, _, hinv3, _⟩ := h
  cases hp : s.pend
  · have hs : s.CompletesSet :=
      ((captureAfter_case s).pend_iff hinv3 hp).1 (by simpa [hp] using hpend)
    have ⟨hf, _⟩ := hs
    have hlow : s.din = false := by
      simp only [State.fallEdge, Bool.and_eq_true, Bool.not_eq_true'] at hf
      exact hf.2
    obtain ⟨-, hdinq, htcnt⟩ := cycleAfter_timer_of_fall hf
    exact ⟨htcnt, hdinq.trans hlow, (captureAfter_case s).inact_of_completesSet hs⟩
  · simp [hp] at hpend

/-- P_TW is at least 2 (decision D3), so that TMAX is at least 3. -/
theorem three_le_tmax {p : Params} (h : p.legal = true) : 3 ≤ p.tmax :=
  Nat.sub_le_sub_right (Nat.pow_le_pow_right (n := 2) (by decide) (two_le_tw_of_legal h)) 1

/-- Settles O10: with TCNT = 1 the comparator is off. -/
theorem pendingAnalysisMeetsNoPeriodicTick : Obligations.PendingAnalysisMeetsNoPeriodicTick := by
  refine ⟨fun s t h => ?_, fun s ⟨hl, _⟩ hfresh hp hop => ?_⟩
  · obtain ⟨-, rfl⟩ | ⟨hs, rfl⟩ := eq_resetAfter_or_cycleAfter h
    · exact nofun
    · exact pendFresh_cycleAfter hs
  · obtain ⟨htcnt, -⟩ := hfresh hp
    obtain ⟨-, -, hovf⟩ := (captureOp_eq_ptick_iff s).1 hop
    have hmax := three_le_tmax hl
    rw [ovf_iff] at hovf
    omega

end Sys2Proof.Machine
end

section
/-! PROOFS. A line held for any number of cycles, timeouts on the way included: the duration it measures
(O31), and the first edges after a reset (O59). -/

namespace Sys2Proof.Machine

/-! ### Runs of a held line -/

/-- What each cycle of a held line carries on holds after any number of its cycles. -/
theorem exists_run_of_holds {n m : Nat} : ∀ {P : Nat → State → Prop} {s : State}, s.Ready →
    s.Holds (n + m) → P 0 s →
    (∀ k u, k < n → u.Ready → u.din = u.dinq → P k u → P (k + 1) u.cycleAfter) →
    ∃ u, Runs n s u ∧ u.Ready ∧ u.Holds m ∧ P n u := by
  induction n with
  | zero =>
    intro P s h hh h0 _
    exact ⟨s, rfl, h, Nat.zero_add m ▸ hh, h0⟩
  | succ n ih =>
    intro P s h hh h0 hstep
    rw [Nat.succ_add] at hh
    obtain ⟨hr, hd, -⟩ := pins_of_holds hh
    obtain ⟨u, hrun, hu⟩ := ih (P := fun k => P (k + 1)) (ready_cycleAfter h)
      (holds_cycleAfter hh).1 (hstep 0 s n.succ_pos h hd h0)
      fun k v hk => hstep (k + 1) v (Nat.succ_lt_succ hk)
    exact ⟨u, (runs_succ_iff h hr).2 hrun, hu⟩

/-- `u` has the configuration and DINQ of `s`, and TCNT `n` ticks on (R120). -/
def State.Ticked (s : State) (n : Nat) (u : State) : Prop :=
  u.params = s.params ∧ u.dinq = s.dinq ∧ u.tcnt = (s.tcnt + n) % 2 ^ s.params.tw

theorem ticked_zero {s : State} (h : s.Ready) : s.Ticked 0 s := by
  obtain ⟨-, -, -, -, -, -, -, -, htcnt, -⟩ := h
  exact ⟨rfl, rfl, (Nat.mod_eq_of_lt (tmax_add_one s.params ▸ Nat.lt_succ_of_le htcnt)).symm⟩

/-- A cycle without an edge is one tick, modulo 2^P_TW, a timeout included. -/
theorem ticked_cycleAfter {s u : State} {n : Nat} (h : s.Ticked n u) (hd : u.din = u.dinq) :
    s.Ticked (n + 1) u.cycleAfter := by
  obtain ⟨hp, hq, ht⟩ := h
  obtain ⟨hparams, -⟩ := captureAfter_keeps u
  obtain ⟨hdinq, htcnt⟩ := cycleAfter_timer u
  refine ⟨hparams.trans hp, hdinq.trans (hd.trans hq), ?_⟩
  rw [htcnt, prologue_of_no_edge hd.symm, hp, ht, Nat.mod_add_mod, Nat.add_assoc]

theorem exists_run_ticked {s : State} {n : Nat} (h : s.Ready) (hh : s.Holds n) :
    ∃ u, Runs n s u ∧ s.Ticked n u := by
  obtain ⟨u, hrun, -, -, hu⟩ := exists_run_of_holds (m := 0) h hh (ticked_zero h)
    fun _ _ _ _ hd hk => ticked_cycleAfter hk hd
  exact ⟨u, hrun, hu⟩

/-- A step with RST leaves the reset registers, of a circuit that exists. -/
theorem eq_resetAfter_of_rst {s t : State} (hr : s.rst = true) (h : step s = .next t) :
    s.params.legal = true ∧ t = s.resetAfter := by
  have hl : s.params.legal = true := step_params h ▸ (everyNextStateIsReady s t h).1
  exact ⟨hl, Host.Outcome.next.inj (h.symm.trans (step_of_reset hl hr))⟩

/-- Settles O31: an edge leaves TCNT at 1, a reset cycle at 0, and both leave DINQ at the level held. -/
theorem durationMeasurement : Obligations.DurationMeasurement := by
  refine ⟨fun s t n h hr hd hst hh => ?_, fun s t n hr hst hh => ?_⟩
  · obtain rfl := Host.Outcome.next.inj ((step_of_ready h hr).symm.trans hst)
    obtain ⟨u, hrun, -, hq, ht⟩ := exists_run_ticked (ready_cycleAfter h) hh
    obtain ⟨hparams, -⟩ := captureAfter_keeps s
    obtain ⟨hdinq, htcnt⟩ := cycleAfter_timer s
    rw [htcnt, prologue_of_edge hd, Nat.add_comm] at ht
    exact ⟨u, hrun, hq.trans hdinq, ht.trans (congrArg (fun p => (n + 1) % 2 ^ p.tw) hparams)⟩
  · obtain ⟨hl, rfl⟩ := eq_resetAfter_of_rst hr hst
    obtain ⟨u, hrun, -, hq, ht⟩ := exists_run_ticked (ready_resetAfter hl) hh
    exact ⟨u, hrun, hq, ht.trans (congrArg (· % 2 ^ s.params.tw) (Nat.zero_add n))⟩

/-! ### The operations of a cycle in Idle -/

/-- Without reset and without an edge the cycle only counts, with the overflow or without (R90). -/
theorem captureOp_of_no_edge {s : State} (hr : s.rst = false) (hd : s.din = s.dinq) :
    s.captureOp = .ok (if s.ovf then .ptick else .count) := by
  obtain ⟨hu, hf⟩ := edges_eq_false_of_held hd
  simp [captureOp_eq, hr, hu, hf]

theorem captureOp_of_rise_in_idle {s : State} (hr : s.rst = false) (hc : s.capt = false)
    (hq : s.dinq = false) (hd : s.din = true) : s.captureOp = .ok .start := by
  simp [captureOp_eq, hr, hc, (riseEdge_iff s).2 ⟨hq, hd⟩]

theorem captureOp_of_fall_in_idle {s : State} (hr : s.rst = false) (hc : s.capt = false)
    (hq : s.dinq = true) (hd : s.din = false) : s.captureOp = .ok .fallIdle := by
  simp [captureOp_eq, hr, hc, State.riseEdge, State.fallEdge, hq, hd]

/-! ### From a reset to the first rising edge -/

/-- Idle with nothing received, nothing pending and nothing at the ports. -/
def State.Blank (s : State) : Prop :=
  s.capt = false ∧ s.fset = 0 ∧ s.pend = false ∧ s.valid = false ∧ s.data = 0 ∧ s.chg = false

/-- A cycle in which no capture opens leaves a blank core blank, a timeout too. -/
theorem CaptureCase.blank {s t : State} (h : CaptureCase s t) (hs : s.Blank)
    (hu : s.riseEdge = false) : t.Blank := by
  have ⟨hc, _, _, _, hdata, hchg⟩ := hs
  cases h with
  | timer => exact hs
  | start he => exact absurd (hu.symm.trans he) Bool.false_ne_true
  | store b _ hcapt => exact absurd (hc.symm.trans hcapt) Bool.false_ne_true
  | abort => exact ⟨rfl, rfl, rfl, rfl, hdata, hchg⟩

theorem blank_cycleAfter {s : State} (hs : s.Blank) (hu : s.riseEdge = false) :
    s.cycleAfter.Blank := by
  have ⟨_, _, hp, _, hdata, _⟩ := hs
  obtain ⟨hc, hfset, hpend, hvalid, -⟩ := (captureAfter_case s).blank hs hu
  rw [cycleAfter_of_not_pend hp]
  exact ⟨hc, hfset, hpend, hvalid, hdata, rfl⟩

/-- A blank core stays blank however long the line is held. -/
theorem exists_run_of_blank {s : State} {n : Nat} (h : s.Ready) (hs : s.Blank) (hh : s.Holds n) :
    ∃ u, Runs n s u ∧ u.Ready ∧ u.Blank ∧ s.Ticked n u := by
  obtain ⟨u, hrun, hu, -, hb, ht⟩ := exists_run_of_holds (m := 0)
    (P := fun k u => u.Blank ∧ s.Ticked k u) h hh ⟨hs, ticked_zero h⟩
    fun _ _ _ _ hd hk =>
      ⟨blank_cycleAfter hk.1 (edges_eq_false_of_held hd).1, ticked_cycleAfter hk.2 hd⟩
  exact ⟨u, hrun, hu, hb, ht⟩

theorem blank_resetAfter (s : State) : s.resetAfter.Blank := ⟨rfl, rfl, rfl, rfl, rfl, rfl⟩

/-- The overflow is the tick before a multiple of 2^P_TW. -/
theorem mod_eq_tmax_iff (p : Params) (n : Nat) :
    n % 2 ^ p.tw = p.tmax ↔ (n + 1) % 2 ^ p.tw = 0 := by
  rw [← tmax_add_one, Nat.succ_mod_succ_eq_zero_iff]

/-- Settles O59: the core is blank from the reset to the first rising edge, which meets it in Idle. -/
theorem firstEdgesAfterReset : Obligations.FirstEdgesAfterReset := by
  intro s t hr hst n hh
  obtain ⟨hl, rfl⟩ := eq_resetAfter_of_rst hr hst
  obtain ⟨u, hrun, hu, hb, hparams, hq, ht⟩ :=
    exists_run_of_blank (ready_resetAfter hl) (blank_resetAfter s) hh
  have ⟨hc, hfset, _, hvalid, hdata, hchg⟩ := hb
  refine ⟨u, hrun, hc, hfset, hq, by rw [State.ports, hvalid, hdata, hchg], fun hur hd => ?_,
    fun hur hlow hd => captureOp_of_rise_in_idle hur hc (hq.trans hlow) hd,
    fun hur hhigh hd => ⟨captureOp_of_fall_in_idle hur hc (hq.trans hhigh) hd,
      u.cycleAfter, step_of_ready hu hur, fun m hm => ?_⟩⟩
  · have hovf : u.ovf = true ↔ (n + 1) % 2 ^ s.params.tw = 0 := by
      have hsum : s.resetAfter.tcnt + n = n := Nat.zero_add n
      rw [ovf_iff, ht, hparams, hsum, ← mod_eq_tmax_iff]
      rfl
    simp only [← hovf]
    exact captureOp_of_no_edge hur (hd.trans hq.symm)
  · have hrise : u.riseEdge = false := by simp [State.riseEdge, hd]
    obtain ⟨w, hrunw, -, ⟨hcw, -⟩, -, hqw, -⟩ :=
      exists_run_of_blank (ready_cycleAfter hu) (blank_cycleAfter hb hrise) hm
    have hlow : w.dinq = false := hqw.trans ((cycleAfter_timer u).1.trans hd)
    exact ⟨w, hrunw, hcw, fun hwr hwd => captureOp_of_rise_in_idle hwr hcw hlow hwd⟩

end Sys2Proof.Machine
end

section
/-! PROOFS. The timeout of a silent line (O32): every cycle of it is one tick more in TCNT and INACT
together, until the two stand at their bounds. -/

namespace Sys2Proof.Machine

/-! ### The ticks of a silent line -/

/-- The ticks TCNT and INACT hold together: INACT counts the overflows of TCNT (R122). -/
def State.ticks (s : State) : Nat := s.inact * 2 ^ s.params.tw + s.tcnt

/-- The ticks at which silence times out, both counters at their bounds (R127, R171). -/
def silenceTicks (p : Params) : Nat := p.tmax + p.timeout * 2 ^ p.tw

/-- A cycle without an edge is the timeout exactly when the state holds all the ticks of silence. -/
theorem timesOut_iff_ticks {s : State} (h : s.Ready) (hp : s.pend = false) (hd : s.din = s.dinq) :
    s.TimesOut ↔ s.ticks = silenceTicks s.params := by
  obtain ⟨-, -, -, -, -, hinact, -, -, htcnt, -⟩ := h
  have he : s.edge = false := (edge_eq_false_iff s).2 hd.symm
  rw [State.TimesOut, ovf_iff, State.ticks, silenceTicks]
  refine ⟨fun ⟨_, ht, _, hi⟩ => by rw [ht, hi, Nat.add_comm], fun hsum => ?_⟩
  have hi : s.inact = s.params.timeout := by
    by_contra hne
    have hlt : (s.inact + 1) * 2 ^ s.params.tw ≤ s.params.timeout * 2 ^ s.params.tw :=
      Nat.mul_le_mul_right _ (by omega)
    have hmax := tmax_add_one s.params
    rw [Nat.succ_mul] at hlt
    omega
  exact ⟨he, by rw [hi] at hsum; omega, hp, hi⟩

/-- `u` is `s` with the timer `n` ticks on; of the other registers at most CHG differs. -/
def State.Silent (s : State) (n : Nat) (u : State) : Prop :=
  ∃ k i g q c, u = { s with tcnt := k, inact := i, chg := g, stimulus := q, cycle := c } ∧
    i * 2 ^ s.params.tw + k = s.ticks + n

theorem silent_trans {s u v : State} {n m : Nat} (h : s.Silent n u) (h' : u.Silent m v) :
    s.Silent (n + m) v := by
  obtain ⟨k, i, g, q, c, rfl, hn⟩ := h
  obtain ⟨k', i', g', q', c', rfl, hm⟩ := h'
  exact ⟨k', i', g', q', c', rfl, hm.trans ((congrArg (· + m) hn).trans (Nat.add_assoc ..))⟩

/-- Without an edge, a timeout or an analysis a cycle is one tick, with the overflow or without. -/
theorem silent_cycleAfter {s : State} (h : s.Ready) (hp : s.pend = false) (hd : s.din = s.dinq)
    (ht : ¬ s.TimesOut) : s.Silent 1 s.cycleAfter := by
  obtain ⟨-, -, -, -, -, -, -, -, htcnt, -⟩ := h
  obtain hlt | hmax := Nat.lt_or_eq_of_le htcnt
  · rw [cycleAfter_of_held hp hd hlt]
    exact ⟨_, _, _, _, _, rfl, rfl⟩
  · have ho : s.ovf = true := (ovf_iff s).2 hmax
    have hi : s.inact ≠ s.params.timeout :=
      fun hi => ht ⟨(edge_eq_false_iff s).2 hd.symm, ho, hp, hi⟩
    have he : s.captureAfter = { s with tcnt := 0, inact := s.inact + 1 } := by
      obtain ⟨hu, hf⟩ := edges_eq_false_of_held hd
      simp [State.captureAfter, hu, hf, ho, hp, hi, prologue_of_overflow hd.symm hmax]
    rw [cycleAfter_of_not_pend hp, he]
    refine ⟨_, _, _, _, _, rfl, ?_⟩
    rw [State.ticks, hmax, Nat.succ_mul, ← tmax_add_one]
    rfl

/-- Silence up to, and not including, the cycle of the timeout changes nothing but the timer. -/
theorem exists_silent_run {s : State} {n m : Nat} (h : s.Ready) (hp : s.pend = false)
    (hh : s.Holds (n + m)) (hn : s.ticks + n ≤ silenceTicks s.params) :
    ∃ u, Runs n s u ∧ u.Ready ∧ u.Holds m ∧ s.Silent n u := by
  refine exists_run_of_holds h hh ⟨_, _, _, _, _, rfl, rfl⟩ fun j u hj hu hd hs => ?_
  have ⟨k, i, g, q, c, hu', hticks⟩ := hs
  subst hu'
  refine silent_trans hs (silent_cycleAfter hu hp hd fun ht => ?_)
  have hall : i * 2 ^ s.params.tw + k = silenceTicks s.params := (timesOut_iff_ticks hu hp hd).1 ht
  omega

/-! ### The cycle of the timeout -/

/-- The timeout cycle is a full reset, whose prologue wraps TCNT to 0 (R171). -/
theorem cycleAfter_of_timesOut {s : State} (h : s.TimesOut) :
    s.cycleAfter = { s.aborted with tcnt := 0, chg := false }.endCycle := by
  obtain ⟨he, ho, hp, hi⟩ := h
  have hd : s.dinq = s.din := (edge_eq_false_iff s).1 he
  obtain ⟨hu, hf⟩ := edges_eq_false_of_held hd.symm
  have hc : s.captureAfter = s.prologue.aborted := by
    simp [State.captureAfter, hu, hf, ho, hp, hi]
  rw [cycleAfter_of_not_pend hp, hc, prologue_of_overflow hd ((ovf_iff s).1 ho)]
  rfl

/-- Silence to the end of the ticks, and the timeout in its last cycle. -/
theorem exists_run_to_timeout {s : State} {n : Nat} (h : s.Ready) (hp : s.pend = false)
    (hh : s.Holds (n + 1)) (hn : s.ticks + n = silenceTicks s.params) :
    ∃ t, Runs (n + 1) s t ∧ t.Emptied ∧ t.valid = false ∧ t.tcnt = 0 ∧ t.lowd = s.lowd ∧
      t.data = s.data := by
  obtain ⟨u, hrun, hu, hlast, k, i, g, q, c, rfl, hticks⟩ := exists_silent_run h hp hh hn.le
  obtain ⟨hr, hd, -⟩ := pins_of_holds hlast
  have ht := (timesOut_iff_ticks hu hp hd).2 (hticks.trans hn)
  refine ⟨_, runs_snoc n hrun (step_of_ready hu hr), ?_⟩
  rw [cycleAfter_of_timesOut ht]
  exact ⟨⟨rfl, rfl, rfl, rfl, rfl, rfl⟩, rfl, rfl, rfl, rfl⟩

/-! ### The analysis in the first cycle of the silence -/

/-- What a cycle leaves that analyses a pending set and counts one tick (R121, R180). -/
def State.analysed (s : State) : State :=
  { s with
    tcnt := s.tcnt + 1
    fset := 0
    pend := false
    valid := decide s.Unanimous
    data := if s.Unanimous then s.newData else s.data
    chg := decide (s.Unanimous ∧ s.newData ≠ s.data) }.endCycle

theorem cycleAfter_of_pend_held {s : State} (hp : s.pend = true) (hd : s.din = s.dinq)
    (ht : s.tcnt < s.params.tmax) : s.cycleAfter = s.analysed := by
  have ho : s.ovf = false := decide_eq_false ht.ne
  have hc : s.captureAfter = { s with tcnt := s.tcnt + 1 } := by
    obtain ⟨hu, hf⟩ := edges_eq_false_of_held hd
    simp [State.captureAfter, hu, hf, ho, prologue_of_no_overflow hd.symm ht]
  simp [State.cycleAfter, State.analysed, hc, hp]

/-- A pending set is analysed in the first cycle of the silence, which goes on from there. -/
theorem runs_of_pend_held {s : State} {n : Nat} (h : s.Ready) (hp : s.pend = true)
    (ht : s.tcnt < s.params.tmax) (hh : s.Holds (n + 1)) :
    s.analysed.Ready ∧ s.analysed.Holds n ∧ ∀ m t, Runs m s.analysed t → Runs (m + 1) s t := by
  obtain ⟨hr, hd, -⟩ := pins_of_holds hh
  rw [← cycleAfter_of_pend_held hp hd ht]
  exact ⟨ready_cycleAfter h, (holds_cycleAfter hh).1, fun m t => (runs_succ_iff h hr).2⟩

/-- Settles O32: with TCNT = 1 and INACT = 0 one tick of the silence is counted, and the analysis of the
first cycle counts another. -/
theorem silenceTimesOutAtItsCycle : Obligations.SilenceTimesOutAtItsCycle := by
  intro s h ht hi hh
  have ⟨hl, _, hinv1, hinv2, _⟩ := h
  have htmax := three_le_tmax hl
  have hticks : s.ticks = 1 := by simp [State.ticks, ht, hi]
  have hanalysed : s.analysed.ticks = 2 := congrArg (· + 1) hticks
  have hlt : s.tcnt < s.params.tmax := by omega
  obtain ⟨N, hN⟩ : ∃ N, silenceTicks s.params = N + 2 :=
    Nat.exists_eq_add_of_le' (show 2 ≤ s.params.tmax + _ by omega)
  change s.Holds (silenceTicks s.params) at hh
  rw [← silenceTicks, hN]
  rw [hN] at hh
  refine ⟨fun hp n hn => ?_, fun hp n h1 hn => ?_, ?_⟩
  · obtain ⟨m, hm⟩ := Nat.exists_eq_add_of_lt hn
    obtain ⟨u, hrun, -, -, k, i, g, q, c, rfl, -⟩ :=
      exists_silent_run (n := n) (m := m + 1) h hp (hm ▸ hh) (by omega)
    exact ⟨_, hrun, rfl, rfl, rfl, rfl, rfl, rfl, rfl⟩
  · obtain ⟨hready, hholds, hfirst⟩ := runs_of_pend_held h hp hlt hh
    obtain ⟨n, rfl⟩ := Nat.exists_eq_add_of_le' h1
    obtain ⟨m, hm⟩ := Nat.exists_eq_add_of_lt (Nat.lt_of_succ_lt_succ hn)
    have hn' : s.analysed.ticks + n ≤ silenceTicks s.params := by omega
    obtain ⟨u, hrun, -, -, k, i, g, q, c, rfl, -⟩ :=
      exists_silent_run (n := n) (m := m + 1) hready rfl (hm ▸ hholds) hn'
    have hc : s.capt = false := hinv2 hp
    obtain ⟨hf, hb⟩ := hinv1 hc
    exact ⟨_, hfirst n _ hrun, hc, hf, hb, rfl, decide_eq_true_iff, rfl, rfl⟩
  · cases hp : s.pend
    · obtain ⟨t, hrun, ⟨hc, hf, hb, hm, hin, -⟩, hvalid, htcnt, hlowd, hdata⟩ :=
        exists_run_to_timeout h hp hh (by omega)
      exact ⟨t, hrun, hc, hf, hb, hm, hin, hvalid, htcnt, hlowd, by simp [hdata]⟩
    · obtain ⟨hready, hholds, hfirst⟩ := runs_of_pend_held h hp hlt hh
      have hn' : s.analysed.ticks + N = silenceTicks s.params := by omega
      obtain ⟨t, hrun, ⟨hc, hf, hb, hm, hin, -⟩, hvalid, htcnt, hlowd, hdata⟩ :=
        exists_run_to_timeout hready rfl hholds hn'
      exact ⟨t, hfirst _ t hrun, hc, hf, hb, hm, hin, hvalid, htcnt, hlowd,
        hdata.trans (by simp [State.analysed])⟩

end Sys2Proof.Machine
end

section
/-! PROOFS. The classifier without the sentinel: the symmetric contract of R141 (O21), and the one place
where the nested branches of R140 leave it (O22). -/

namespace Sys2Proof.Machine

/-! ### The branches of R140 -/

section
variable {p : Params} {h : Nat} (l : Nat)

/-- A short high phase tries the One branch only, whether or not it is long too (decision D9). -/
theorem classify_of_inS (hs : p.inS h = true) :
    classify p l h false = if p.inL l then .one else .invalid := by
  simp [classify, hs]

theorem classify_of_inL_only (hs : p.inS h = false) (hl : p.inL h = true) :
    classify p l h false = if p.inS l then .zero else .invalid := by
  simp [classify, hs, hl]

theorem classify_of_no_window (hs : p.inS h = false) (hl : p.inL h = false) :
    classify p l h false = .invalid := by
  simp [classify, hs, hl]

end

/-! ### The symmetric contract -/

/-- The classifier answers for these two phases as the symmetric contract does (R141). -/
def MeetsSymmetricContract (p : Params) (l h : Nat) : Prop :=
  (classify p l h false = .one ↔ p.inS h = true ∧ p.inL l = true) ∧
  (classify p l h false = .zero ↔ p.inL h = true ∧ p.inS l = true) ∧
  (classify p l h false = .invalid ↔
    ¬ (p.inS h = true ∧ p.inL l = true) ∧ ¬ (p.inL h = true ∧ p.inS l = true))

/-- With the high phase in one window at most, at most one pair of the contract can hold, and that pair's
branch is the one the classifier tries. -/
theorem meetsSymmetricContract_of_not_both {p : Params} {h : Nat} (l : Nat)
    (hnot : ¬ (p.inS h = true ∧ p.inL h = true)) : MeetsSymmetricContract p l h := by
  unfold MeetsSymmetricContract
  cases hs : p.inS h with
  | true =>
    have hl : p.inL h = false := Bool.eq_false_iff.2 fun hl => hnot ⟨hs, hl⟩
    rw [classify_of_inS l hs, hl]
    cases p.inL l <;> simp
  | false =>
    cases hl : p.inL h with
    | true =>
      rw [classify_of_inL_only l hs hl]
      cases p.inS l <;> simp
    | false => simp [classify_of_no_window l hs hl]

/-- Where one window ends before the other begins, no high phase is in both (R142). -/
theorem not_inS_and_inL_of_disjoint {p : Params} (h : Nat)
    (hdisj : p.bounds.shortMax < p.bounds.longMin ∨ p.bounds.longMax < p.bounds.shortMin) :
    ¬ (p.inS h = true ∧ p.inL h = true) := by
  rw [p.inS_iff, p.inL_iff]
  omega

/-- Settles O21: disjoint windows have no high phase in both. -/
theorem classifierIsSymmetricWhenDisjoint : Obligations.ClassifierIsSymmetricWhenDisjoint :=
  fun _ l h hdisj => meetsSymmetricContract_of_not_both l (not_inS_and_inL_of_disjoint h hdisj)

/-- Settles O22: a high phase in both windows is a short one, and every other meets the contract. -/
theorem overlappingWindowsTryOneOnly : Obligations.OverlappingWindowsTryOneOnly :=
  fun _ l h => ⟨fun hs _ => classify_of_inS l hs, meetsSymmetricContract_of_not_both l,
    not_inS_and_inL_of_disjoint h⟩

end Sys2Proof.Machine
end

section
/-! PROOFS. FALL_BIT: a stored symbol (O34), the frame and the set it completes (O35, O36), what it leaves
unchanged (O37), and the abort on an Invalid one (O38). -/

namespace Sys2Proof.Machine

/-! ### FALL_BIT as a whole next state -/

/-- FALL_BIT stores a One or a Zero (R151, R153). -/
theorem exec_fallBit_of_symbol {s : State} {b : Bool} (h : s.Ready)
    (hs : s.symbol = if b then .one else .zero) : exec .fallBit s = .next (s.stored b) := by
  have ⟨_, _, _, _, hinv3, _⟩ := h
  have he : effectOf .fallBit s = .ok { after := s.stored b, cause := .none } := by
    cases b <;> simp [effectOf, fallBitEffect, hs, storeSymbol_eq hinv3, State.stored, State.withSymbol]
  exact exec_of_effect h (by decide) (by decide) he

/-- A symbol that is not Invalid is a One or a Zero. -/
theorem symbol_eq_of_valid {s : State} (hs : s.symbol ≠ .invalid) :
    s.symbol = if decide (s.symbol = .one) then .one else .zero := by
  cases hsym : s.symbol
  · rfl
  · rfl
  · exact absurd hsym hs

theorem exec_fallBit_of_valid {s : State} (h : s.Ready) (hs : s.symbol ≠ .invalid) :
    exec .fallBit s = .next (s.stored (decide (s.symbol = .one))) :=
  exec_fallBit_of_symbol h (symbol_eq_of_valid hs)

/-- An Invalid symbol is the full reset over the prologue (R156, R170). -/
theorem exec_fallBit_of_invalid {s : State} (h : s.Ready) (hs : s.symbol = .invalid) :
    exec .fallBit s = .next s.prologue.aborted := by
  have he : effectOf .fallBit s =
      .ok { after := s.prologue.aborted, cause := .malformedBitTiming } := by
    simp [effectOf, fallBitEffect, hs, State.aborted]
  exact exec_of_effect h (by decide) (by decide) he

/-- Settles O38: the prologue of a falling edge, under the full reset. -/
theorem fallBitAbortsOnInvalid : Obligations.FallBitAbortsOnInvalid := by
  intro s h hq hd hs
  rw [exec_fallBit_of_invalid h hs, prologue_of_edge (by simp [hq, hd]), hd]
  rfl

/-! ### What a stored symbol writes -/

/-- The advance writes the capture state and PEND, and no other register (R152). -/
theorem advanceCapture_eq (s t : State) :
    ∃ c f b p, advanceCapture s t = { t with capt := c, fidx := f, bidx := b, pend := p } := by
  unfold advanceCapture
  split
  · exact ⟨_, _, _, _, rfl⟩
  · split
    · exact ⟨_, _, _, _, rfl⟩
    · exact ⟨_, _, _, _, rfl⟩

/-- Settles O34: the bit stored is the one at the symbol's address, and BIDX below 12 is the first way
the capture advances. -/
theorem fallBitStoresASymbol : Obligations.FallBitStoresASymbol := by
  intro s b h hs
  have ⟨_, _, _, _, hinv3, _⟩ := h
  obtain ⟨-, -, hinact⟩ := stored_registers s b
  refine ⟨_, exec_fallBit_of_symbol h hs, (getLsbD_stored_fset hinv3 b _).trans (if_pos rfl),
    hinact, fun hlt => ?_⟩
  obtain ⟨-, hbidx, e⟩ | ⟨h12, -⟩ | ⟨h12, -⟩ := stored_cases hinv3 b
  · rw [e]
    exact ⟨hbidx, rfl, rfl⟩
  · omega
  · simp [h12] at hlt

/-- Settles O37: the one bit of FSET, and the advance over the prologue of a falling edge. -/
theorem fallBitStoreFrame : Obligations.FallBitStoreFrame := by
  intro s h hc hq hd hs
  have ⟨_, _, _, _, hinv3, _⟩ := h
  have hp : s.pend = false := pend_eq_false_of_capt h hc
  have hpend := stored_pend hinv3 hp (decide (s.symbol = .one))
  have hfset := getLsbD_stored_fset hinv3 (decide (s.symbol = .one))
  refine ⟨_, exec_fallBit_of_valid h hs, fun a ha => (hfset a).trans (if_neg ha), ?_⟩
  rw [hpend]
  obtain ⟨c, f, b, p, e⟩ := advanceCapture_eq s (s.withSymbol (decide (s.symbol = .one)))
  rw [State.stored, e, State.withSymbol, prologue_of_edge (by simp [hq, hd])]
  exact ⟨hd, rfl, rfl, rfl, rfl, rfl, rfl, rfl, rfl, rfl, by simp [hp]⟩

/-! ### The last symbol of a frame -/

/-- Idle waits for the header (INV1), so any later symbol is one of a capture. -/
theorem capt_of_bidx_ne_zero {s : State} (h : s.Ready) (hb : s.bidx ≠ 0) : s.capt = true := by
  obtain ⟨-, -, hinv1, -⟩ := h
  exact Bool.eq_true_of_not_eq_false fun hc => hb (hinv1 hc).2

/-- Settles O35: the second way the capture advances. -/
theorem frameCompleteGoesToTheNextFrame : Obligations.FrameCompleteGoesToTheNextFrame := by
  intro s h hs hb hf
  have ⟨_, _, _, _, hinv3, _⟩ := h
  have hc : s.capt = true := capt_of_bidx_ne_zero h (by rw [hb]; decide)
  obtain ⟨-, hframe, -⟩ := stored_advance hinv3 hc (decide (s.symbol = .one))
  exact ⟨_, exec_fallBit_of_valid h hs, hframe hb hf⟩

/-- The step that completes a set leaves its analysis pending (R155). -/
theorem pend_cycleAfter_of_completesSet {s : State} (h : s.Ready) (hs : s.CompletesSet) :
    s.cycleAfter.pend = true := by
  have ⟨_, _, _, _, hinv3, _⟩ := h
  have ⟨_, hc, _⟩ := hs
  have hp : s.pend = false := pend_eq_false_of_capt h hc
  have hpend : s.captureAfter.pend = true := ((captureAfter_case s).pend_iff hinv3 hp).2 hs
  simp [hp, hpend]

/-- The cycle of a pending analysis without reset reads the FrameSet and clears it (R155, R184). -/
theorem analyze_of_pend {s : State} (h : s.Ready) (hr : s.rst = false) (hp : s.pend = true) :
    s.consumerOp = .ok .analyze ∧ ∃ t, step s = .next t ∧ t.pend = false ∧ t.fset = 0 :=
  ⟨by simp [consumerOp_eq, hr, hp], _, step_of_ready h hr, by simp [hp], by simp [hp]⟩

/-- Settles O36: the third way the capture advances, and the analysis in the cycle that follows. -/
theorem setCompleteHandsOver : Obligations.SetCompleteHandsOver := by
  intro s h hs hb hf
  have ⟨_, _, _, _, hinv3, _⟩ := h
  have hc : s.capt = true := capt_of_bidx_ne_zero h (by rw [hb]; decide)
  refine ⟨?_, fun t hr hq hd hst htr => ?_⟩
  · have haddr : s.symbolAddress = 26 := by simp [State.symbolAddress, State.symbolPosition, hb, hf]
    have hfset := getLsbD_stored_fset hinv3 (decide (s.symbol = .one))
    obtain ⟨-, -, hinact⟩ := stored_registers s (decide (s.symbol = .one))
    obtain ⟨hlt, -⟩ | ⟨-, hlt, -⟩ | ⟨-, -, e⟩ := stored_cases hinv3 (decide (s.symbol = .one))
    · simp [hb] at hlt
    · simp [hf] at hlt
    · rw [haddr] at hfset
      exact ⟨_, exec_fallBit_of_valid h hs, congrArg State.capt e, congrArg State.fidx e,
        congrArg State.bidx e, congrArg State.pend e, hinact, (hfset 26).trans (if_pos rfl),
        fun a ha => (hfset a).trans (if_neg ha)⟩
  · have hfall : s.fallEdge = true := by simp [State.fallEdge, hq, hd]
    obtain rfl := Host.Outcome.next.inj ((step_of_ready h hr).symm.trans hst)
    exact analyze_of_pend (ready_cycleAfter h) htr
      (pend_cycleAfter_of_completesSet h ⟨hfall, hc, hs, hb, hf⟩)

end Sys2Proof.Machine
end

section
/-! PROOFS. Which cycles move the capture state (O39), and which registers the operations of each agent
can write at all (O53). -/

namespace Sys2Proof.Machine

/-! ### The capture state -/

/-- Without reset the state a step answers is that of the whole cycle. -/
theorem eq_cycleAfter_of_no_rst {s t : State} (hr : s.rst = false) (h : step s = .next t) :
    t = s.cycleAfter := by
  obtain ⟨-, e⟩ | ⟨-, hrst, -⟩ | ⟨-, -, -, e⟩ | ⟨-, -, -, -, e⟩ | ⟨-, -, e⟩ := step_cases s
  · exact nomatch h.symm.trans e
  · exact nomatch hr.symm.trans hrst
  · exact nomatch h.symm.trans e
  · exact nomatch h.symm.trans e
  · exact Host.Outcome.next.inj (h.symm.trans e)

/-- A pure timer operation keeps the capture state; START, a symbol and the timeout may move it (R172). -/
theorem CaptureCase.keeps_or_moves {s t : State} (h : CaptureCase s t) :
    (t.capt = s.capt ∧ t.fidx = s.fidx ∧ t.bidx = s.bidx) ∨
    (s.capt = false ∧ s.riseEdge = true) ∨ (s.capt = true ∧ s.fallEdge = true) ∨ s.TimesOut := by
  cases h with
  | timer => exact .inl ⟨rfl, rfl, rfl⟩
  | start he hc => exact .inr (.inl ⟨hc, he⟩)
  | store b he hc => exact .inr (.inr (.inl ⟨hc, he⟩))
  | abort h =>
    obtain ⟨he, hc, -⟩ | ht := h
    · exact .inr (.inr (.inl ⟨hc, he⟩))
    · exact .inr (.inr (.inr ht))

theorem fallEdge_iff (s : State) : s.fallEdge = true ↔ s.dinq = true ∧ s.din = false := by
  simp [State.fallEdge]

/-- Settles O39: the consumer's writes are merged over a capture state it does not touch. -/
theorem onlyTheseCyclesMoveTheCaptureState : Obligations.OnlyTheseCyclesMoveTheCaptureState := by
  intro s t hr hst hmoved
  obtain rfl := eq_cycleAfter_of_no_rst hr hst
  obtain ⟨hc, hf, hb⟩ | hcase := (captureAfter_case s).keeps_or_moves
  · exact absurd hmoved (not_or.2 ⟨not_not.2 hc, not_or.2 ⟨not_not.2 hf, not_not.2 hb⟩⟩)
  · rwa [riseEdge_iff, fallEdge_iff] at hcase

/-! ### The registers each agent can write -/

/-- `t` differs from `s` at most in the registers the consumer writes (R184, R224). -/
def State.ConsumerWrites (s t : State) : Prop :=
  ∃ v d g m p, t = { s with valid := v, data := d, chg := g, fset := m, pend := p }

/-- `t` differs from `s` at most in the registers the capture agent writes, with those of its full reset
(R170, R224). -/
def State.CaptureWrites (s t : State) : Prop :=
  ∃ q k l c f b m i p v, t = { s with
    dinq := q, tcnt := k, lowd := l, capt := c, fidx := f, bidx := b, fset := m, inact := i,
    pend := p, valid := v }

theorem consumerWrites_of_exec {k : Instr} {s t : State} (hk : k = .cidle ∨ k = .analyze)
    (h : exec k s = .next t) : s.ConsumerWrites t := by
  obtain ⟨r, hr⟩ := exists_exec_eq_conclude k s
  obtain ⟨-, x, hx, rfl⟩ := conclude_eq_next_iff.1 (hr.symm.trans h)
  obtain rfl | rfl := hk
  · obtain rfl := Except.ok.inj hx
    exact ⟨_, _, _, _, _, rfl⟩
  · obtain ⟨c, hc⟩ := analyzeEffect_after s
    obtain rfl := Except.ok.inj (hc.symm.trans hx)
    exact ⟨_, _, _, _, _, rfl⟩

theorem captureWrites_timed (s : State) (l i : Nat) : s.CaptureWrites (s.timed l i) :=
  ⟨_, _, _, _, _, _, _, _, _, _, rfl⟩

theorem captureWrites_opened (s : State) : s.CaptureWrites s.opened :=
  ⟨_, _, _, _, _, _, _, _, _, _, rfl⟩

theorem captureWrites_stored (s : State) (b : Bool) : s.CaptureWrites (s.stored b) := by
  obtain ⟨c, f, i, p, e⟩ := advanceCapture_eq s (s.withSymbol b)
  rw [State.stored, e]
  exact ⟨_, _, _, _, _, _, _, _, _, _, rfl⟩

theorem captureWrites_aborted (s : State) : s.CaptureWrites s.prologue.aborted :=
  ⟨_, _, _, _, _, _, _, _, _, _, rfl⟩

/-- From a Ready state each capture operation leaves one of these four states (R120 to R124, R150 to
R156). -/
theorem exists_exec_captureWrites {c : Instr} {s : State} (h : s.Ready)
    (hc : c = .count ∨ c = .ptick ∨ c = .start ∨ c = .rise ∨ c = .fallIdle ∨ c = .fallBit) :
    ∃ t, exec c s = .next t ∧ s.CaptureWrites t := by
  obtain rfl | rfl | rfl | rfl | rfl | rfl := hc
  · exact ⟨_, exec_of_effect h (by decide) (by decide) rfl, captureWrites_timed s _ _⟩
  · cases hp : s.pend
    · by_cases hi : s.inact = s.params.timeout
      · exact ⟨_, exec_ptick_of_timeout h hp hi, captureWrites_aborted s⟩
      · exact ⟨_, exec_ptick_of_counted h hp hi, captureWrites_timed s _ _⟩
    · exact ⟨_, exec_ptick_of_pend h hp, captureWrites_timed s _ _⟩
  · exact ⟨_, exec_of_effect (i := .start) h (by decide) (by decide) rfl, captureWrites_opened s⟩
  · exact ⟨_, exec_of_effect h (by decide) (by decide) rfl, captureWrites_timed s _ _⟩
  · exact ⟨_, exec_of_effect h (by decide) (by decide) rfl, captureWrites_timed s _ _⟩
  · by_cases hs : s.symbol = .invalid
    · exact ⟨_, exec_fallBit_of_invalid h hs, captureWrites_aborted s⟩
    · exact ⟨_, exec_fallBit_of_valid h hs, captureWrites_stored s _⟩

theorem captureWrites_of_exec {c : Instr} {s t : State}
    (hc : c = .count ∨ c = .ptick ∨ c = .start ∨ c = .rise ∨ c = .fallIdle ∨ c = .fallBit)
    (h : exec c s = .next t) : s.CaptureWrites t := by
  have hready : s.Ready :=
    ready_of_exec_next h (by rintro rfl; simp at hc) (by rintro rfl; simp at hc)
  obtain ⟨u, hu, hw⟩ := exists_exec_captureWrites hready hc
  obtain rfl := Host.Outcome.next.inj (h.symm.trans hu)
  exact hw

/-- Settles O53: every register the statement names is outside those its agent writes. -/
theorem crossAgentFrames : Obligations.CrossAgentFrames := by
  refine ⟨fun k s t hk h => ?_, fun c s t hc h => ?_⟩
  · obtain ⟨v, d, g, m, p, rfl⟩ := consumerWrites_of_exec hk h
    exact ⟨rfl, rfl, rfl, rfl, rfl, rfl, rfl, rfl, rfl, rfl⟩
  · obtain ⟨q, k, l, c, f, b, m, i, p, v, rfl⟩ := captureWrites_of_exec hc h
    exact ⟨rfl, rfl, rfl, rfl, rfl⟩

end Sys2Proof.Machine
end

section
/-! PROOFS. The consumer's operations: ANALYZE of a unanimous set (O41) and of any other (O42), what it
consumes (O43), what its ports depend on (O45), an identical set (O46), and CIDLE (O44). -/

namespace Sys2Proof.Machine

/-! ### ANALYZE as a whole next state -/

/-- What ANALYZE leaves: the verdict, the data it takes, the pulse, and the FrameSet consumed
(R180 to R184). -/
def State.analyzed (s : State) : State :=
  { s with
    valid := decide s.Unanimous
    data := if s.Unanimous then s.newData else s.data
    chg := decide (s.Unanimous ∧ s.newData ≠ s.data)
    fset := 0
    pend := false }

theorem exec_analyze_of_ready {s : State} (h : s.Ready) : exec .analyze s = .next s.analyzed := by
  obtain ⟨x, hx⟩ := analyzeEffect_after s
  exact exec_of_effect (i := .analyze) h (by decide) (by decide) hx

theorem analyzed_of_unanimous {s : State} (hu : s.Unanimous) :
    s.analyzed = { s with
      valid := true, data := s.newData, chg := decide (s.newData ≠ s.data), fset := 0, pend := false } := by
  rw [State.analyzed, decide_eq_true hu, if_pos hu, decide_eq_decide.2 (and_iff_right hu)]

theorem analyzed_of_not_unanimous {s : State} (hu : ¬ s.Unanimous) :
    s.analyzed = { s with valid := false, chg := false, fset := 0, pend := false } := by
  simp only [State.analyzed, hu, if_false, false_and, decide_false]

/-- Settles O41: the three matches decide the latch. -/
theorem analyzeLatchesAUnanimousSet : Obligations.AnalyzeLatchesAUnanimousSet := by
  intro s h hu
  rw [exec_analyze_of_ready h, analyzed_of_unanimous hu]

/-- Settles O42: beside VALID and CHG a mismatch writes only FSET and PEND. -/
theorem analyzeRejectsAMismatch : Obligations.AnalyzeRejectsAMismatch := by
  intro s h hu
  rw [exec_analyze_of_ready h, analyzed_of_not_unanimous hu]
  exact ⟨_, rfl, rfl, rfl, rfl, rfl, rfl, rfl, rfl⟩

/-- Settles O43: a pending analysis is in Idle (INV2), where both indices are 0 (INV1). -/
theorem analyzeConsumesTheFrameSet : Obligations.AnalyzeConsumesTheFrameSet := by
  intro s h hp
  have ⟨_, _, hinv1, hinv2, _⟩ := h
  obtain ⟨hf, hb⟩ := hinv1 (hinv2 hp)
  exact ⟨hf, hb, s.analyzed, exec_analyze_of_ready h, fun _ => BitVec.getLsbD_zero, rfl, rfl, rfl, rfl,
    rfl, rfl, rfl, rfl⟩

/-! ### What the ports show of an analysis -/

theorem analyzed_ports (s : State) :
    s.analyzed.ports =
      { vt := decide s.Unanimous
        dout := if s.Unanimous then s.newData else s.data
        chg := decide (s.Unanimous ∧ s.newData ≠ s.data) } := rfl

/-- The verdict reads the three address fields and P_ADDR, and nothing else (R181). -/
theorem unanimous_congr {s₁ s₂ : State} (hp : s₁.params = s₂.params)
    (hb : ∀ k, k < 3 → readBits s₁.fset (13 * k + 4) 8 = readBits s₂.fset (13 * k + 4) 8) :
    s₁.Unanimous ↔ s₂.Unanimous := by
  have hmatch : ∀ k, k < 3 → (s₁.FrameMatches k ↔ s₂.FrameMatches k) := fun k hk => by
    rw [State.FrameMatches, State.FrameMatches, hb k hk, hp]
  exact and_congr (hmatch 0 (by decide)) (and_congr (hmatch 1 (by decide)) (hmatch 2 (by decide)))

/-- An analysis answers only from a Ready state. -/
theorem eq_analyzed_of_exec {s t : State} (h : exec .analyze s = .next t) : t = s.analyzed :=
  Host.Outcome.next.inj
    (h.symm.trans (exec_analyze_of_ready (ready_of_exec_next h (by decide) (by decide))))

/-- Settles O45: the ports are made of the verdict, the data of frame 2 and DATA. -/
theorem analysisIgnoresHeadersAndEarlyData : Obligations.AnalysisIgnoresHeadersAndEarlyData := by
  intro s₁ s₂ t₁ t₂ hp hd hb hn h₁ h₂
  have hu : s₁.Unanimous ↔ s₂.Unanimous := unanimous_congr hp hb
  obtain rfl := eq_analyzed_of_exec h₁
  obtain rfl := eq_analyzed_of_exec h₂
  simp only [analyzed_ports, hu, hn, hd]

/-- Settles O46: the verdict and the data are those already at the ports, and so there is no pulse. -/
theorem identicalSetChangesNoOutput : Obligations.IdenticalSetChangesNoOutput := by
  intro s h hr hp hu hn hv hc
  refine ⟨s.cycleAfter, step_of_ready h hr, ?_⟩
  rw [cycleAfter_ports_of_pend hp, ← analyzed_ports, analyzed_of_unanimous hu]
  simp [State.ports, hn, hv, hc]

/-! ### CIDLE -/

/-- Settles O44: CIDLE is its one write to CHG. -/
theorem cidleClearsChg : Obligations.CidleClearsChg := fun _ h =>
  exec_of_effect (i := .cidle) h (by decide) (by decide) rfl

end Sys2Proof.Machine
end

section
/-! PROOFS. The output projection: the ports where VALID rises again over the same data (O47). -/

namespace Sys2Proof.Machine

/-- A unanimous set whose data is already in DATA: the ports show it as valid, with no pulse, whatever VALID
and CHG were before (R181, R183, R199). -/
theorem cycleAfter_ports_of_same_data {s : State} (hp : s.pend = true) (hu : s.Unanimous)
    (hn : s.newData = s.data) :
    s.cycleAfter.ports = { vt := true, dout := s.data, chg := false } := by
  have hchg : ¬ (s.Unanimous ∧ s.newData ≠ s.data) := fun h => h.2 hn
  rw [cycleAfter_ports_of_pend hp, decide_eq_true hu, if_pos hu, decide_eq_false hchg, hn]

/-- Settles O47: the cycle is the analysis; it raises VALID, while DATA already holds what it latches. -/
theorem revalidationDoesNotRetrigger : Obligations.RevalidationDoesNotRetrigger := by
  intro s h hr hp hu hn _
  exact ⟨s.cycleAfter, step_of_ready h hr, cycleAfter_ports_of_same_data hp hu hn⟩

end Sys2Proof.Machine
end

section
/-! PROOFS. The causes: which operation raises which (O55), and that no cycle carries two (O56). -/

namespace Sys2Proof.Machine

/-! ### The cause of each operation -/

theorem causeOf_of_effect {i : Instr} {s : State} {x : Effect} (h : effectOf i s = .ok x) :
    causeOf i s = x.cause := by
  rw [causeOf, h]

/-- Of the ten operations only FALL_BIT, PTICK and ANALYZE can raise a cause (R210, decision D21). -/
theorem causeOf_eq_none {i : Instr} (s : State) (hf : i ≠ .fallBit) (hp : i ≠ .ptick)
    (ha : i ≠ .analyze) : causeOf i s = .none := by
  cases i with
  | fallBit => exact absurd rfl hf
  | ptick => exact absurd rfl hp
  | analyze => exact absurd rfl ha
  | resetCapture => exact causeOf_of_effect (i := .resetCapture) (resetEffect_eq s)
  | resetConsumer => exact causeOf_of_effect (i := .resetConsumer) (resetEffect_eq s)
  | start => exact causeOf_of_effect (i := .start) (startEffect_eq s)
  | count => rfl
  | rise => rfl
  | fallIdle => rfl
  | cidle => rfl

/-- FALL_BIT raises MalformedBitTiming exactly for an Invalid symbol; storing a valid one meets no fault,
as the indices are in range (R211). -/
theorem causeOf_fallBit {s : State} (h : s.Inv3) :
    causeOf .fallBit s = if s.symbol = .invalid then .malformedBitTiming else .none := by
  cases hs : s.symbol with
  | one => simp [causeOf, effectOf, fallBitEffect, hs, storeSymbol_eq h]
  | zero => simp [causeOf, effectOf, fallBitEffect, hs, storeSymbol_eq h]
  | invalid => simp [causeOf, effectOf, fallBitEffect, hs]

/-- PTICK raises InactivityTimeout exactly in its timeout, which a pending analysis suppresses (R212). -/
theorem causeOf_ptick (s : State) :
    causeOf .ptick s =
      if s.pend = false ∧ s.inact = s.params.timeout then .inactivityTimeout else .none := by
  by_cases ht : s.pend = false ∧ s.inact = s.params.timeout
  · obtain ⟨hp, hi⟩ := ht
    simp [causeOf, effectOf, ptickEffect, hp, hi]
  · obtain ⟨n, hn⟩ := ptickEffect_of_no_timeout (s := s) (by simpa [or_iff_not_imp_left] using ht)
    rw [if_neg ht]
    exact causeOf_of_effect (i := .ptick) hn

/-- ANALYZE raises AddressMismatch exactly for a set that is not unanimous (R213). -/
theorem causeOf_analyze (s : State) :
    causeOf .analyze s = if s.Unanimous then .none else .addressMismatch := by
  rw [causeOf_of_effect (i := .analyze) (analyzeEffect_eq s)]
  simp only [latch, matchCount_eq_three_iff]
  by_cases hu : s.Unanimous
  · rw [if_pos hu, if_pos hu]
    split
    · rfl
    · rfl
  · rw [if_neg hu, if_neg hu]

/-- Settles O55, operation by operation. -/
theorem causesOfTheOperations : Obligations.CausesOfTheOperations := by
  intro s ⟨_, _, _, _, hinv3, _⟩
  refine ⟨causeOf_fallBit hinv3, causeOf_ptick s, causeOf_analyze s, ?_⟩
  rintro i (rfl | rfl | rfl | rfl | rfl | rfl | rfl)
  all_goals exact causeOf_eq_none s (by decide) (by decide) (by decide)

/-! ### One cause in a cycle -/

/-- ANALYZE is no operation of the capture agent (R89). -/
theorem decodeCapture_ne_analyze : ∀ w : CaptureWord, decodeCapture w ≠ .ok .analyze := by decide

/-- FALL_BIT and PTICK are no operations of the consumer (R89). -/
theorem decodeConsumer_ne_fallBit_ptick : ∀ w : ConsumerWord,
    decodeConsumer w ≠ .ok .fallBit ∧ decodeConsumer w ≠ .ok .ptick := by decide

theorem capt_of_decode_fallBit {s : State} (h : decodeCapture s.captureWord = .ok .fallBit) :
    s.capt = true := by
  have hbit : ∀ w, decodeCapture w = .ok .fallBit → w.getLsbD 3 = true := by decide
  obtain ⟨-, hcapt, -⟩ := captureWordBits s
  exact hcapt.symm.trans (hbit _ h)

theorem pend_of_decode_analyze {s : State} (h : decodeConsumer s.consumerWord = .ok .analyze) :
    s.pend = true := by
  have hbit : ∀ w, decodeConsumer w = .ok .analyze → w.getLsbD 0 = true := by decide
  obtain ⟨-, hpend⟩ := consumerWordIsRstAndPend s
  exact hpend.symm.trans (hbit _ h)

/-- With an analysis pending the capture agent raises no cause: it is in Idle (INV2), so it decides no
symbol, and its periodic tick is suppressed (R122). -/
theorem causeOf_capture_of_pend {s : State} {c : Instr} (h : s.Inv2) (hp : s.pend = true)
    (hc : decodeCapture s.captureWord = .ok c) : causeOf c s = .none := by
  by_cases ht : c = .ptick
  · rw [ht, causeOf_ptick, if_neg (by simp [hp])]
  · refine causeOf_eq_none s ?_ ht ?_
    · rintro rfl
      exact Bool.false_ne_true ((h hp).symm.trans (capt_of_decode_fallBit hc))
    · rintro rfl
      exact decodeCapture_ne_analyze _ hc

/-- Settles O56: the consumer's one cause is ANALYZE's, whose cycle leaves the capture agent none. -/
theorem aCycleHasAtMostOneCause : Obligations.ACycleHasAtMostOneCause := by
  intro s c k ⟨_, _, _, hinv2, _⟩ hc hk
  by_cases ha : k = .analyze
  · subst ha
    exact .inl (causeOf_capture_of_pend hinv2 (pend_of_decode_analyze hk) hc)
  · obtain ⟨hf, hp⟩ := decodeConsumer_ne_fallBit_ptick s.consumerWord
    exact .inr (causeOf_eq_none s (by rintro rfl; exact hf hk) (by rintro rfl; exact hp hk) ha)

end Sys2Proof.Machine
end

section
/-! PROOFS. The first edges after an abort or a timeout (O40): the core is in Idle, and only a rising edge
takes it out. -/

namespace Sys2Proof.Machine

/-- The cycle of an abort or a timeout ends in Idle (R170). -/
theorem CaptureCase.capt_of_abort {s t : State} (h : CaptureCase s t)
    (ha : s.Malformed ∨ s.TimesOut) : t.capt = false := by
  cases h with
  | timer _ _ _ _ hm ht => exact (ha.elim hm ht).elim
  | start he hc =>
    obtain ⟨-, hcapt, -⟩ | ht := ha
    · exact absurd (hc.symm.trans hcapt) Bool.false_ne_true
    · exact absurd ht (not_timesOut_of_edge (edge_of_riseEdge he))
  | store b he _ hs =>
    obtain ⟨-, -, hinvalid⟩ | ht := ha
    · exact absurd hinvalid hs
    · exact absurd ht (not_timesOut_of_edge (edge_of_fallEdge he))
  | abort => rfl

/-- Idle ends at a rising edge only (R172). -/
theorem CaptureCase.capt_of_idle {s t : State} (h : CaptureCase s t) (hc : s.capt = false)
    (hu : s.riseEdge = false) : t.capt = false := by
  cases h with
  | timer => exact hc
  | start he => exact absurd (hu.symm.trans he) Bool.false_ne_true
  | store b _ hcapt => exact absurd (hc.symm.trans hcapt) Bool.false_ne_true
  | abort => rfl

theorem capt_cycleAfter_of_idle {s : State} (hc : s.capt = false) (hu : s.riseEdge = false) :
    s.cycleAfter.capt = false :=
  (captureAfter_case s).capt_of_idle hc hu

/-- Idle lasts as long as the line is held, through any timeouts. -/
theorem exists_idle_run {s : State} {n : Nat} (h : s.Ready) (hc : s.capt = false)
    (hh : s.Holds n) : ∃ u, Runs n s u ∧ u.Ready ∧ u.capt = false ∧ u.dinq = s.dinq := by
  obtain ⟨u, hrun, hu, -, hidle⟩ := exists_run_of_holds (m := 0)
    (P := fun _ u => u.capt = false ∧ u.dinq = s.dinq) h hh ⟨hc, rfl⟩
    fun _ v _ _ hd hv => ⟨capt_cycleAfter_of_idle hv.1 (edges_eq_false_of_held hd).1,
      (cycleAfter_timer v).1.trans (hd.trans hv.2)⟩
  exact ⟨u, hrun, hu, hidle⟩

/-- After a falling edge in Idle the line is low and the core still in Idle, for however long the low
phase lasts (R124). -/
theorem exists_low_idle_run_of_fall {u : State} {m : Nat} (h : u.Ready) (hc : u.capt = false)
    (hd : u.din = false) (hm : u.cycleAfter.Holds m) :
    ∃ w, Runs m u.cycleAfter w ∧ w.capt = false ∧ w.dinq = false := by
  have hrise : u.riseEdge = false := by simp [State.riseEdge, hd]
  obtain ⟨w, hrun, -, hcw, hqw⟩ :=
    exists_idle_run (ready_cycleAfter h) (capt_cycleAfter_of_idle hc hrise) hm
  exact ⟨w, hrun, hcw, hqw.trans ((cycleAfter_timer u).1.trans hd)⟩

/-- Settles O40: the abort leaves Idle, and in Idle a rising edge is a START and a falling edge a
FALL_IDLE, which stays in Idle. -/
theorem theEdgeAfterAnAbortIsAStart : Obligations.TheEdgeAfterAnAbortIsAStart := by
  intro s t hr ha hst
  have ht : t.Ready := everyNextStateIsReady s t hst
  obtain rfl := eq_cycleAfter_of_no_rst hr hst
  have hidle : s.cycleAfter.capt = false := (captureAfter_case s).capt_of_abort ha
  refine ⟨hidle, fun ⟨hf, _⟩ => (cycleAfter_timer s).1.trans ((fallEdge_iff s).1 hf).2,
    fun n hh => ?_⟩
  obtain ⟨u, hrun, hu, hc, hq⟩ := exists_idle_run ht hidle hh
  refine ⟨u, hrun, hc, hq, fun hur hlow hd => captureOp_of_rise_in_idle hur hc hlow hd,
    fun hur hhigh hd => ⟨captureOp_of_fall_in_idle hur hc hhigh hd, u.cycleAfter,
      step_of_ready hu hur, fun m hm => ?_⟩⟩
  obtain ⟨w, hrunw, hcw, hlow⟩ := exists_low_idle_run_of_fall hu hc hd hm
  exact ⟨w, hrunw, hcw, fun hwr hwd => captureOp_of_rise_in_idle hwr hcw hlow hwd⟩

end Sys2Proof.Machine
end

section
/-! PROOFS. A reset cycle forgets the registers (O58): what it leaves is made of the configuration, the
host's samples and the cycle count alone. -/

namespace Sys2Proof.Machine

/-- The pins are drawn from the host's samples, or from the free levels past their end (R96); no register
enters. -/
theorem pins_congr {s₁ s₂ : State} (hs : s₁.stimulus = s₂.stimulus) (hc : s₁.cycle = s₂.cycle) :
    s₁.pins = s₂.pins := by
  unfold State.pins
  rw [hs, hc]

theorem resetAfter_congr {s₁ s₂ : State} (hp : s₁.params = s₂.params)
    (hs : s₁.stimulus = s₂.stimulus) (hc : s₁.cycle = s₂.cycle) :
    s₁.resetAfter = s₂.resetAfter := by
  have hd : s₁.din = s₂.din := congrArg Pins.din (pins_congr hs hc)
  simp only [State.resetAfter, hp, hs, hc, hd]

/-- Settles O58: both states reset in this cycle, since RST is a pin, and a reset cycle leaves
`resetAfter`. -/
theorem resetCycleForgetsTheRegisters : Obligations.ResetCycleForgetsTheRegisters := by
  intro s₁ s₂ hp hl hs hc hr
  have hr₂ : s₂.rst = true := (congrArg Pins.rst (pins_congr hs hc)).symm.trans hr
  refine ⟨s₂.resetAfter, ?_, step_of_reset (hp ▸ hl) hr₂⟩
  rw [step_of_reset hl hr, resetAfter_congr hp hs hc]

end Sys2Proof.Machine
end
